-- ==== Sys2Proof/Word.lean ====
section
/-! DEFINITION. The words of the block: bytes of the output stream, 32-bit fields and binary32 patterns, 64-bit command
and response words (spec/00_scope.md R8, spec/30_encoding.md R80, R88). -/

namespace Sys2Proof

/-- One byte of the output stream `OUT` (R37). -/
abbrev Byte := BitVec 8

/-- A 32-bit field: a binary32 bit pattern (R11), an `OPERAND`, a packet field or a `DATA` field (R8). -/
abbrev Word32 := BitVec 32

/-- A 64-bit command word (R80) or response word (R88). -/
abbrev Word64 := BitVec 64

end Sys2Proof
end

