-- ==== Sys2Proof/Config.lean ====
section
/-! DEFINITION. What is fixed when the block is built (spec/00_scope.md R6, R39), the two ports (R20), the two slots (R23,
R34), complex values (R11), and the one free value of the model: the order of two commands pending at once (R110). -/

namespace Sys2Proof

/-- The two command ports, one for each agent: the producer's P and the consumer's C (spec/10_state.md R20). -/
inductive Port where
  | portP
  | portC
  deriving DecidableEq, Repr, Inhabited

/-- The index of one of exactly two slots (R8, R34): `ACTIVE`, `LAST_W` and the read slot are values of this type. -/
inductive Slot where
  | s0
  | s1
  deriving DecidableEq, Repr, Inhabited

/-- A complex value: two binary32 bit patterns, 64 bits in all (R11). -/
structure Cplx where
  re : Word32
  im : Word32
  deriving DecidableEq, Repr, Inhabited

/-- The order of the bytes of every packet field (spec/20_memory.md R57). -/
inductive ByteOrder where
  | le
  | be
  deriving DecidableEq, Repr, Inhabited

/-- The build-time parameters of the block (R6). They are no state (R39): a state carries them unchanged, which is how a
step takes them as its arguments (log 1). -/
structure Config where
  /-- `LOG2N`, legal from 1 to 30. -/
  log2n : Nat
  /-- `THRESHOLD_SQ`, a binary32 from 0 to 1. -/
  thresholdSq : Word32
  /-- `BYTE_ORDER`. -/
  byteOrder : ByteOrder
  /-- `TW`, the twiddle ROM as data; its only legal value is the table of spec/41_fft.md R152. -/
  tw : List Cplx
  deriving DecidableEq, Repr

/-- `N = 2^LOG2N`, the number of elements of a Window (R6). -/
def Config.n (c : Config) : Nat := 2 ^ c.log2n

/-- `M = N/2`, the number of bins minus one (R6). -/
def Config.m (c : Config) : Nat := c.n / 2

/-- FREE VALUE. Which port goes first when both have a command pending and the host has settled no order: the spec fixes
none ("either may go first", spec/40_handoff.md R110; A17). `k` counts the choices taken from it (log 6). -/
opaque Config.arbiter (k : Nat) : Port

end Sys2Proof
end

