-- ==== Sys2Proof/Syntax.lean ====
section
/-! DEFINITION. The command set RFFT-CMD version 1 (spec/30_encoding.md R84), the fault codes (spec/60_exceptions.md R221)
and the fields of a response (R88). -/

namespace Sys2Proof

/-- The nine commands, one constructor per row of spec/opcode_table.json (R84). -/
inductive Instr where
  /-- `NOP` (R210). -/
  | nop
  /-- `P.START` (R114). -/
  | pStart
  /-- `P.PUSH`: the operand is a binary32 sample, any 32-bit pattern (R116). -/
  | pPush (sample : Word32)
  /-- `P.STOP` (R117). -/
  | pStop
  /-- `C.START` (R118). -/
  | cStart
  /-- `C.FFT` (R160). -/
  | cFft
  /-- `C.END` (R119). -/
  | cEnd
  /-- `C.COMPRESS` (R190). -/
  | cCompress
  /-- `RD.STATUS`: the operand is the selector `SEL`, an unsigned integer (R211). -/
  | rdStatus (sel : Word32)
  deriving DecidableEq, Repr

/-- The fault codes the block can report (R221). -/
inductive FaultCode where
  | illegalOpcode
  | reservedNonzero
  | wrongPort
  | pReenter
  | pNotWriting
  | windowOverflow
  | windowIncomplete
  | ingestHalted
  | cReenter
  | cNotReading
  | noSpectrum
  | badSelector
  deriving DecidableEq, Repr

/-- The fields of a response word (R88); a field that a command does not name is 0. -/
structure Response where
  ok : Bool := false
  valid : Bool := false
  slot : Slot := .s0
  same : Bool := false
  flip : Bool := false
  errcode : BitVec 8 := 0
  data : Word32 := 0
  deriving DecidableEq, Repr

end Sys2Proof
end

