-- ==== Sys2Proof/WellFormed.lean ====
section
/-! DEFINITION. What makes a command legal beyond its encoding: a selector that is defined (spec/43_control.md R211) and a
port that may issue it (spec/30_encoding.md R85). Both breaches have a named fault and are modelled; the checks name the
commands that are free of them. -/

namespace Sys2Proof

/-- The operand is one the command defines: `SEL` is 0 to 3 (R83, R211); every other command takes any operand it has. -/
def Instr.wf : Instr → Bool
  | .rdStatus sel => decide (sel.toNat ≤ 3)
  | .nop | .pStart | .pPush _ | .pStop | .cStart | .cFft | .cEnd | .cCompress => true

/-- Port rights: the ports column of the opcode map (R84, R85). -/
def Instr.acceptedOn : Instr → Port → Bool
  | .nop, _ => true
  | .rdStatus _, _ => true
  | .pStart, p => p == .portP
  | .pPush _, p => p == .portP
  | .pStop, p => p == .portP
  | .cStart, p => p == .portC
  | .cFft, p => p == .portC
  | .cEnd, p => p == .portC
  | .cCompress, p => p == .portC

end Sys2Proof
end

