-- ==== Sys2Proof/Decode.lean ====
section
/-! DEFINITION. Decoding a command word (spec/30_encoding.md R80 to R87), total on every 64-bit word and rejecting by name,
and the encoder written from the same table. -/

namespace Sys2Proof

/-- `OPC = cmd[7:0]` (R81). -/
def opcField (w : Word64) : BitVec 8 := w.extractLsb' 0 8

/-- `RSV = cmd[31:8]` (R82). -/
def rsvField (w : Word64) : BitVec 24 := w.extractLsb' 8 24

/-- `OPERAND = cmd[63:32]` (R83). -/
def operandField (w : Word64) : Word32 := w.extractLsb' 32 32

/-- The opcode map (R84): the command an `OPC` selects, given the operand; none for the 247 reserved values (R87). -/
def selectCommand (opc : BitVec 8) (operand : Word32) : Option Instr :=
  if opc = 0x00 then some .nop
  else if opc = 0x01 then some .pStart
  else if opc = 0x02 then some (.pPush operand)
  else if opc = 0x03 then some .pStop
  else if opc = 0x11 then some .cStart
  else if opc = 0x12 then some .cFft
  else if opc = 0x13 then some .cEnd
  else if opc = 0x14 then some .cCompress
  else if opc = 0x20 then some (.rdStatus operand)
  else none

/-- Only `P.PUSH` and `RD.STATUS` use the operand (R83). -/
def takesOperand : Instr → Bool
  | .pPush _ => true
  | .rdStatus _ => true
  | .nop | .pStart | .pStop | .cStart | .cFft | .cEnd | .cCompress => false

/-- The decode checks that do not look at the port, in the order of R86: the opcode, the reserved bits, the operand of a
command that takes none. -/
def decodeWord (w : Word64) : Except FaultCode Instr :=
  match selectCommand (opcField w) (operandField w) with
  | none => .error .illegalOpcode
  | some i =>
    if rsvField w ≠ 0 then .error .reservedNonzero
    else if takesOperand i = false ∧ operandField w ≠ 0 then .error .reservedNonzero
    else .ok i

/-- Decoding a command word that arrives on port `p`: all the checks of R86. -/
def decode (p : Port) (w : Word64) : Except FaultCode Instr :=
  match decodeWord w with
  | .error f => .error f
  | .ok i => if i.acceptedOn p then .ok i else .error .wrongPort

/-- The `OPC` of each command (R84). -/
def opcOf : Instr → BitVec 8
  | .nop => 0x00
  | .pStart => 0x01
  | .pPush _ => 0x02
  | .pStop => 0x03
  | .cStart => 0x11
  | .cFft => 0x12
  | .cEnd => 0x13
  | .cCompress => 0x14
  | .rdStatus _ => 0x20

/-- The `OPERAND` of each command, 0 where it takes none (R83). -/
def operandOf : Instr → Word32
  | .pPush sample => sample
  | .rdStatus sel => sel
  | .nop | .pStart | .pStop | .cStart | .cFft | .cEnd | .cCompress => 0

/-- The command word of a command: `OPERAND`, 24 zero bits, `OPC` (R80). -/
def encode (i : Instr) : Word64 := operandOf i ++ (0 : BitVec 24) ++ opcOf i

/-- The number of each fault code (spec/60_exceptions.md R221). -/
def FaultCode.toByte : FaultCode → BitVec 8
  | .illegalOpcode => 0x01
  | .reservedNonzero => 0x02
  | .wrongPort => 0x03
  | .pReenter => 0x04
  | .pNotWriting => 0x05
  | .windowOverflow => 0x06
  | .windowIncomplete => 0x07
  | .ingestHalted => 0x08
  | .cReenter => 0x09
  | .cNotReading => 0x0A
  | .noSpectrum => 0x0B
  | .badSelector => 0x0C

/-- A word of the opcode table as a command word: bit 0 of the table is bit 0 of the word, and every bit above the table's
`nbits` is 0. A command word is delivered whole to its port (R80), so no byte order enters. -/
def tableWord (nbits w : Nat) : Word64 := BitVec.ofNat 64 (w % 2 ^ nbits)

/-- What the decoder reads from a word of the opcode table; a row names no port, so the port check is left out (R86). -/
def decodeTableWord (nbits w : Nat) : Option Instr :=
  match decodeWord (tableWord nbits w) with
  | .ok i => some i
  | .error _ => none

end Sys2Proof
end

