-- ==== Sys2Proof/Machine/Float.lean ====
section
/-! DEFINITION. The binary32 arithmetic of spec/41_fft.md R150 and R151 and the measures' primitives of spec/42_compress.md
R180. Every finite binary32 is a whole multiple of 2^-149, so each operation is exact integer arithmetic followed by one
rounding (log 13). -/

namespace Sys2Proof.Machine

/-- The canonical NaN `0x7FC00000`, the result of every operation that gives a NaN (R11, R150). -/
def fNan : Word32 := 0x7FC00000

/-- `+0.0` (R11). -/
def fPosZero : Word32 := 0x00000000

/-- `-0.0` (R11). -/
def fNegZero : Word32 := 0x80000000

/-- `1.0` (R11). -/
def fOne : Word32 := 0x3F800000

/-- The complex value `(+0.0, +0.0)` (R114). -/
def cZero : Cplx := ⟨fPosZero, fPosZero⟩

/-- The pattern without its sign bit; it grows with the magnitude of the value. -/
def fMag (a : Word32) : Nat := a.toNat % 2 ^ 31

/-- The sign bit. -/
def fSign (a : Word32) : Bool := decide (2 ^ 31 ≤ a.toNat)

/-- The magnitude pattern of infinity. -/
def infMag : Nat := 0x7F800000

/-- A NaN of any sign and payload. -/
def fIsNan (a : Word32) : Bool := decide (infMag < fMag a)

/-- An infinity of either sign. -/
def fIsInf (a : Word32) : Bool := decide (fMag a = infMag)

/-- The magnitude of the value of a finite magnitude pattern, as a multiple of 2^-149: subnormals are kept (R150). -/
def magUnits (p : Nat) : Nat :=
  if p < 2 ^ 23 then p else (2 ^ 23 + p % 2 ^ 23) * 2 ^ (p / 2 ^ 23 - 1)

/-- The value of a finite binary32 as a multiple of 2^-149. -/
def fUnits (a : Word32) : Int := if fSign a then -(magUnits (fMag a) : Int) else (magUnits (fMag a) : Int)

/-- A pattern from its sign and its magnitude pattern. -/
def fPack (sign : Bool) (p : Nat) : Word32 := BitVec.ofNat 32 (if sign then 2 ^ 31 + p else p)

/-- The whole number nearest `num / den`, ties to even. -/
def nearestEven (num den : Nat) : Nat :=
  let q := num / den
  let r := num % den
  if den < 2 * r ∨ (2 * r = den ∧ q % 2 = 1) then q + 1 else q

/-- The magnitude pattern nearest `num / den` units of 2^-149, ties to even, overflow to infinity (R150). `sh` is how many
bits the value's unit in the last place lies above 2^-149; a significand that rounds up to 2^24 carries into the next
exponent by itself. -/
def roundMag (num den : Nat) : Nat :=
  let sh := Nat.log2 (num / den) - 23
  min (nearestEven num (den * 2 ^ sh) + sh * 2 ^ 23) infMag

/-- The value with the other sign; used by subtraction only. -/
def fNeg (a : Word32) : Word32 := a ^^^ fNegZero

/-- `fadd` (R150): an invalid sum is the canonical NaN, an exact zero sum is `+0.0` unless both operands are negative. -/
def fadd (a b : Word32) : Word32 :=
  if fIsNan a || fIsNan b then fNan
  else if fIsInf a then (if fIsInf b && fSign a != fSign b then fNan else a)
  else if fIsInf b then b
  else
    let s := fUnits a + fUnits b
    if s = 0 then (if fSign a && fSign b then fNegZero else fPosZero)
    else fPack (decide (s < 0)) (roundMag s.natAbs 1)

/-- `fsub` (R150): `a - b` is `a + (-b)`, as IEEE-754 defines. -/
def fsub (a b : Word32) : Word32 := fadd a (fNeg b)

/-- `fmul` (R150): the sign of a product is the exclusive-or of the signs; `0 x inf` is the canonical NaN. -/
def fmul (a b : Word32) : Word32 :=
  let sign := fSign a != fSign b
  if fIsNan a || fIsNan b then fNan
  else if fIsInf a || fIsInf b then
    (if fMag a = 0 ∨ fMag b = 0 then fNan else fPack sign infMag)
  else fPack sign (roundMag (magUnits (fMag a) * magUnits (fMag b)) (2 ^ 149))

/-- `fdiv` (R150): `0/0` and `inf/inf` are the canonical NaN, a finite non-zero value over zero is a signed infinity. -/
def fdiv (a b : Word32) : Word32 :=
  let sign := fSign a != fSign b
  if fIsNan a || fIsNan b then fNan
  else if fIsInf a then (if fIsInf b then fNan else fPack sign infMag)
  else if fIsInf b then fPack sign 0
  else if fMag b = 0 then (if fMag a = 0 then fNan else fPack sign infMag)
  else fPack sign (roundMag (magUnits (fMag a) * 2 ^ 149) (magUnits (fMag b)))

/-- `fabs` (R180): the sign bit cleared. On a NaN the pattern does not matter (A19, log 14). -/
def fabs (a : Word32) : Word32 := fPack false (fMag a)

/-- The place of a value that is no NaN in the order of values; `+0.0` and `-0.0` share a place. -/
def fOrder (a : Word32) : Int := if fSign a then -(fMag a : Int) else (fMag a : Int)

/-- `flt` (R180): quiet less-than. -/
def flt (a b : Word32) : Bool := !fIsNan a && !fIsNan b && decide (fOrder a < fOrder b)

/-- `fge` (R180): quiet greater-or-equal. -/
def fge (a b : Word32) : Bool := !fIsNan a && !fIsNan b && decide (fOrder b ≤ fOrder a)

/-- `feq` (R180): quiet equality. -/
def feq (a b : Word32) : Bool := !fIsNan a && !fIsNan b && decide (fOrder a = fOrder b)

/-- `cadd` (R151). -/
def cadd (u t : Cplx) : Cplx := ⟨fadd u.re t.re, fadd u.im t.im⟩

/-- `csub` (R151). -/
def csub (u t : Cplx) : Cplx := ⟨fsub u.re t.re, fsub u.im t.im⟩

/-- `cmul` (R151): the first operand is the twiddle factor; four products, each rounded before the sum. -/
def cmul (w b : Cplx) : Cplx :=
  ⟨fsub (fmul w.re b.re) (fmul w.im b.im), fadd (fmul w.re b.im) (fmul w.im b.re)⟩

end Sys2Proof.Machine
end

