-- ==== Sys2Proof/Machine/Twiddle.lean ====
section
/-! DEFINITION. The twiddle ROM of spec/41_fft.md R152: the table of the spec for N = 64, and for every N the correctly
rounded table, found by exact comparison of a cosine with a binary fraction (log 15). -/

namespace Sys2Proof.Machine

/-- The first half of the N = 64 table, as R152 prints it. -/
def tw64Low : List Cplx :=
  [⟨0x3F800000, 0x00000000⟩, ⟨0x3F7EC46D, 0xBDC8BD36⟩,
   ⟨0x3F7B14BE, 0xBE47C5C2⟩, ⟨0x3F74FA0B, 0xBE94A031⟩,
   ⟨0x3F6C835E, 0xBEC3EF15⟩, ⟨0x3F61C598, 0xBEF15AEA⟩,
   ⟨0x3F54DB31, 0xBF0E39DA⟩, ⟨0x3F45E403, 0xBF226799⟩,
   ⟨0x3F3504F3, 0xBF3504F3⟩, ⟨0x3F226799, 0xBF45E403⟩,
   ⟨0x3F0E39DA, 0xBF54DB31⟩, ⟨0x3EF15AEA, 0xBF61C598⟩,
   ⟨0x3EC3EF15, 0xBF6C835E⟩, ⟨0x3E94A031, 0xBF74FA0B⟩,
   ⟨0x3E47C5C2, 0xBF7B14BE⟩, ⟨0x3DC8BD36, 0xBF7EC46D⟩]

/-- The second half of the N = 64 table, as R152 prints it. -/
def tw64High : List Cplx :=
  [⟨0x00000000, 0xBF800000⟩, ⟨0xBDC8BD36, 0xBF7EC46D⟩,
   ⟨0xBE47C5C2, 0xBF7B14BE⟩, ⟨0xBE94A031, 0xBF74FA0B⟩,
   ⟨0xBEC3EF15, 0xBF6C835E⟩, ⟨0xBEF15AEA, 0xBF61C598⟩,
   ⟨0xBF0E39DA, 0xBF54DB31⟩, ⟨0xBF226799, 0xBF45E403⟩,
   ⟨0xBF3504F3, 0xBF3504F3⟩, ⟨0xBF45E403, 0xBF226799⟩,
   ⟨0xBF54DB31, 0xBF0E39DA⟩, ⟨0xBF61C598, 0xBEF15AEA⟩,
   ⟨0xBF6C835E, 0xBEC3EF15⟩, ⟨0xBF74FA0B, 0xBE94A031⟩,
   ⟨0xBF7B14BE, 0xBE47C5C2⟩, ⟨0xBF7EC46D, 0xBDC8BD36⟩]

/-- The N = 64 table (R152). -/
def tw64 : List Cplx := tw64Low ++ tw64High

/-- Every second entry: the table for size N is every second entry of the table for size 2N (R152). -/
def everySecond : List Cplx → List Cplx
  | [] => []
  | [a] => [a]
  | a :: _ :: rest => a :: everySecond rest

/-- The N = 8 table, from the N = 64 one (R152). -/
def tw8 : List Cplx := everySecond (everySecond (everySecond tw64))

/-- How `cos(2*pi*k/2^l)` compares with `num / 2^e`, decided exactly. Doubling the angle turns a comparison of `cos t` with
`q`, for a `q` of the same sign, into one of `cos 2t = 2 (cos t)^2 - 1` with `2 q^2 - 1`, reversed where both are negative. -/
def cosCompare : Nat → Nat → Int → Nat → Ordering
  | 0, _, num, e => compare ((2 : Int) ^ e) num
  | l + 1, k, num, e =>
    let r := k % 2 ^ (l + 1)
    if r = 0 then compare ((2 : Int) ^ e) num
    else if 4 * r ≤ 2 ^ (l + 1) ∨ 3 * 2 ^ (l + 1) ≤ 4 * r then
      (if num < 0 then .gt else cosCompare l k (2 * num * num - 2 ^ (2 * e)) (2 * e))
    else
      (if 0 ≤ num then .lt else (cosCompare l k (2 * num * num - 2 ^ (2 * e)) (2 * e)).swap)

/-- Whether `cos(2*pi*k/2^l)` is negative. -/
def cosNegative (l k : Nat) : Bool := cosCompare l k 0 0 == .lt

/-- How the magnitude of `cos(2*pi*k/2^l)` compares with `num / 2^e`, for `num` not negative. -/
def cosMagCompare (l k : Nat) (num e : Nat) : Ordering :=
  if cosNegative l k then (cosCompare l k (-(num : Int)) e).swap else cosCompare l k num e

/-- The integer significand of a magnitude pattern. -/
def magSig (p : Nat) : Nat := if p < 2 ^ 23 then p else 2 ^ 23 + p % 2 ^ 23

/-- The binary fraction a magnitude pattern below 2.0 stands for has this many fraction bits. -/
def magFracBits (p : Nat) : Nat := 149 - (p / 2 ^ 23 - 1)

/-- The greatest magnitude pattern whose value is at most the magnitude of the cosine, found bit by bit from bit `b - 1`. -/
def cosFloorMag (l k : Nat) : Nat → Nat → Nat
  | 0, p => p
  | b + 1, p =>
    if cosMagCompare l k (magSig (p + 2 ^ b)) (magFracBits (p + 2 ^ b)) = .lt then cosFloorMag l k b p
    else cosFloorMag l k b (p + 2 ^ b)

/-- `RN32(cos(2*pi*k/2^l))`: nearest, ties to even, an exact zero `+0.0` (R152). -/
def roundedCos (l k : Nat) : Word32 :=
  let p := cosFloorMag l k 30 0
  let q :=
    match cosMagCompare l k (2 * magSig p + 1) (magFracBits p + 1) with
    | .lt => p
    | .gt => p + 1
    | .eq => p + p % 2
  fPack (cosNegative l k && q != 0) q

/-- Entry `k` of the table for `N = 2^l` (R152): `-sin t` is `cos (t + pi/2)`. -/
def twiddleEntry (l k : Nat) : Cplx := ⟨roundedCos l k, roundedCos (l + 2) (4 * k + 2 ^ l)⟩

/-- The table of R152 for `N = 2^l`: its `M = N/2` entries, in order. -/
def twiddleTable (l : Nat) : List Cplx := (List.range (2 ^ l / 2)).map (twiddleEntry l)

/-- `TW[k]` (spec/20_memory.md R54). -/
def twRead (c : Config) (k : Nat) : Cplx := c.tw.getD k cZero

end Sys2Proof.Machine
end

