-- ==== Sys2Proof/Machine/State.lean ====
section
/-! DEFINITION. The state of the block (spec/10_state.md R42) under its configuration (R39), the data of its two ports, the
reasons a step can stop, and the state after reset (spec/70_reset_and_hazards.md R251). -/

namespace Sys2Proof.Machine

/-- Why a step stops with a fault: never. Every fault the spec names is a response word and an `ERR` latch after which the
block "accepts the next command on either port as usual; a fault stops nothing" (R222), so it is a next state (log 10). -/
inductive Fault where
  deriving DecidableEq, Repr

/-- Why the model gives no next state. -/
inductive Refusal where
  /-- Raised by an arm of `exec` for a command that has no meaning yet; safe. No arm raises it. -/
  | notModelled (mnemonic : String)
  /-- Raised by `State.build` for a configuration that "is not a block: it is refused when the block is built" (R7); safe.
  No step raises it. -/
  | notABlock
  deriving DecidableEq, Repr

/-- The whole state. The first sixteen fields are the tuple of R42, `cfg` is the configuration the tuple stands under, and
the fields after it are the ports' data: what the agents have issued and been answered, and the reset input. -/
structure State where
  /-- `ACTIVE`: the write slot (R24). -/
  active : Slot
  /-- `CONCURRENT`: the number of agents inside a critical section (R25). -/
  concurrent : BitVec 2
  /-- `FULL[0]` (R26). -/
  full0 : Bool
  /-- `FULL[1]` (R26). -/
  full1 : Bool
  /-- `W_IN`: the producer is inside its write critical section (R27). -/
  wIn : Bool
  /-- `R_IN`: the consumer holds a granted read (R28). -/
  rIn : Bool
  /-- `FILL`: the samples written into the write slot since the last successful `P.START`, 0 to N (R29, log 11). -/
  fill : Nat
  /-- `LAST_W_VALID` (R30). -/
  lastWValid : Bool
  /-- `LAST_W`: the slot most recently published (R30). -/
  lastW : Slot
  /-- `MD`: a Missed Deadline has been detected (R31). -/
  md : Bool
  /-- `SPEC_VALID`: `C.FFT` has written the spectrum buffer (R32). -/
  specValid : Bool
  /-- `ERR`: the code of the first fault since reset (R33). -/
  err : BitVec 8
  /-- `SLOT[0]`, N elements (R34). -/
  slot0 : List Cplx
  /-- `SLOT[1]`, N elements (R34). -/
  slot1 : List Cplx
  /-- `SPEC`, M + 1 bins (R35). -/
  spec : List Cplx
  /-- `OUT`, the output byte stream (R37). -/
  out : List Byte
  /-- The configuration (R39); no step changes it (log 1). -/
  cfg : Config
  /-- The command words issued on port P and not yet executed, oldest first (R21, log 5). -/
  pIn : List Word64
  /-- The command words issued on port C and not yet executed, oldest first (R21, log 5). -/
  cIn : List Word64
  /-- The response words returned on port P, oldest first (R88, log 7). -/
  pResp : List Word64
  /-- The response words returned on port C, oldest first (R88, log 7). -/
  cResp : List Word64
  /-- The port whose command is being executed (R21, log 7). -/
  cur : Port
  /-- The order the host settles for coming choices between two pending commands (R110, log 6). -/
  grants : List Port
  /-- How many choices have been taken from the free value `Config.arbiter` (log 6). -/
  turn : Nat
  /-- The reset input, asserted and not yet acted on (R250, log 9). -/
  resetIn : Bool
  deriving DecidableEq, Repr

/-- The block of configuration `c` right after reset (R251), with nothing at its ports. The spec leaves the contents of the
slots and of the spectrum buffer open and says no command can observe them (R252): all `(+0.0, +0.0)` (log 3, log 4). -/
def State.initial (c : Config) : State where
  active := .s0
  concurrent := 0
  full0 := false
  full1 := false
  wIn := false
  rIn := false
  fill := 0
  lastWValid := false
  lastW := .s0
  md := false
  specValid := false
  err := 0x00
  slot0 := List.replicate c.n cZero
  slot1 := List.replicate c.n cZero
  spec := List.replicate (c.m + 1) cZero
  out := []
  cfg := c
  pIn := []
  cIn := []
  pResp := []
  cResp := []
  cur := .portP
  grants := []
  turn := 0
  resetIn := false

/-- The configuration of `State.reset`: the spec's example values and defaults (R6) with the N = 64 table of R152 (log 2). -/
def exampleConfig : Config where
  log2n := 6
  thresholdSq := 0x3C23D70B
  byteOrder := .le
  tw := tw64

/-- The machine right after reset, of the example configuration (R251, log 2). -/
def State.reset : State := State.initial exampleConfig

end Sys2Proof.Machine
end

