-- ==== Sys2Proof/Machine/Flags.lean ====
section
/-! DEFINITION. Every word the block assembles from its flags: the response word (spec/30_encoding.md R88), the words of
`RD.STATUS` (spec/43_control.md R212 to R215), the `STATE` register (spec/10_state.md R23) and the output levels (R38). -/

namespace Sys2Proof.Machine

/-- A flag as one bit. -/
def flagBit (b : Bool) : BitVec 1 := BitVec.ofBool b

/-- A slot index as one bit (R24). -/
def slotBit : Slot → BitVec 1
  | .s0 => 0
  | .s1 => 1

/-- The response word (R88): `DATA`, 16 zero bits, `ERRCODE`, 3 zero bits, `FLIP`, `SAME`, `SLOT`, `VALID`, `OK`. -/
def responseWord (r : Response) : Word64 :=
  r.data ++ (0 : BitVec 16) ++ r.errcode ++ (0 : BitVec 3) ++ flagBit r.flip ++ flagBit r.same ++ slotBit r.slot ++
    flagBit r.valid ++ flagBit r.ok

/-- The 5-bit register `STATE` (R23): `FULL[1]`, `FULL[0]`, `CONCURRENT`, `ACTIVE`. -/
def stateWord (s : State) : BitVec 5 :=
  flagBit s.full1 ++ flagBit s.full0 ++ s.concurrent ++ slotBit s.active

/-- The status word, selector 0 (R212). -/
def statusWord (s : State) : Word32 :=
  (0 : BitVec 8) ++ s.err ++ (0 : BitVec 5) ++ slotBit s.lastW ++ flagBit s.lastWValid ++ flagBit s.specValid ++
    flagBit s.md ++ flagBit s.rIn ++ flagBit s.wIn ++ stateWord s

/-- `BYTE_ORDER` as one bit: 0 for `LE`, 1 for `BE` (R214). -/
def byteOrderBit : ByteOrder → BitVec 1
  | .le => 0
  | .be => 1

/-- `FILL` zero-extended to 32 bits: selector 1 (R213), and the `DATA` of `P.PUSH` (R116). -/
def fillWord (s : State) : Word32 := BitVec.ofNat 32 s.fill

/-- The configuration word, selector 2 (R214): `LOG2N` in bits 4:0, `BYTE_ORDER` in bit 8. -/
def configWord (c : Config) : Word32 :=
  (0 : BitVec 23) ++ byteOrderBit c.byteOrder ++ (0 : BitVec 3) ++ BitVec.ofNat 5 c.log2n

/-- `FULL[x]` (R26). -/
def fullOf (s : State) : Slot → Bool
  | .s0 => s.full0
  | .s1 => s.full1

/-- The slot that is not `x`: the read slot is `1 - ACTIVE` (R23). -/
def otherSlot : Slot → Slot
  | .s0 => .s1
  | .s1 => .s0

/-- The read slot, `1 - ACTIVE` (R23). -/
def readSlot (s : State) : Slot := otherSlot s.active

/-- The Missed Deadline test of `P.START`: the slot it hands out is the slot last published (R114, R115). -/
def sameSlot (s : State) : Bool := s.lastWValid && s.lastW == s.active

/-- A published Window waits for a deferred flip (R40). -/
def pendingFlip (s : State) : Bool := fullOf s s.active && s.concurrent != 0

/-- The output `irq_md = MD` (R38). -/
def irqMd (s : State) : Bool := s.md

/-- The output `irq_err = (ERR != 0)` (R38). -/
def irqErr (s : State) : Bool := s.err != 0

end Sys2Proof.Machine
end

