-- ==== Sys2Proof/Machine/Operands.lean ====
section
/-! DEFINITION. The two operand forms of the command set (spec/30_encoding.md R83, R90): a sample and a selector. -/

namespace Sys2Proof.Machine

/-- The slot element of a sample: its pattern unchanged as the real part, `+0.0` as the imaginary part (R90, R116). -/
def sampleElement (sample : Word32) : Cplx := ⟨sample, fPosZero⟩

/-- What `RD.STATUS` reads (R211). -/
inductive Selector where
  | status
  | fill
  | config
  | thresh
  deriving DecidableEq, Repr

/-- `SEL` compared whole as an unsigned integer; none above 3 (R90, R211). -/
def selectorOf (sel : Word32) : Option Selector :=
  if sel = 0 then some .status
  else if sel = 1 then some .fill
  else if sel = 2 then some .config
  else if sel = 3 then some .thresh
  else none

end Sys2Proof.Machine
end

