-- ==== Sys2Proof/Machine/Ops.lean ====
section
/-! DEFINITION. The operations the commands share: responses, the fault (spec/60_exceptions.md R222), the storage spaces
(spec/20_memory.md R51 to R57), leaving a critical section and the flip (spec/40_handoff.md R112, R113), and reset
(spec/70_reset_and_hazards.md R250). -/

namespace Sys2Proof.Machine

/-- `respond(...)`: the response word goes to the port whose command is being executed (R88). -/
def respond (r : Response) (s : State) : State :=
  match s.cur with
  | .portP => { s with pResp := s.pResp ++ [responseWord r] }
  | .portC => { s with cResp := s.cResp ++ [responseWord r] }

/-- `ERR` after a fault: written only while it is 0 (R223). -/
def latchErr (f : FaultCode) (s : State) : State :=
  if s.err = 0 then { s with err := f.toByte } else s

/-- `raise Fault(code)`, the whole effect of every fault (R222): `ERR` latches the first code, the response has `OK = 0`
and the code, and nothing else changes. There is no return from it (R231). -/
def raiseFault (f : FaultCode) (s : State) : State :=
  respond { errcode := f.toByte } (latchErr f s)

/-- The elements of slot `x` (R34). -/
def slotOf (s : State) : Slot → List Cplx
  | .s0 => s.slot0
  | .s1 => s.slot1

/-- Replaces the elements of slot `x`. -/
def setSlot (x : Slot) (w : List Cplx) (s : State) : State :=
  match x with
  | .s0 => { s with slot0 := w }
  | .s1 => { s with slot1 := w }

/-- `SlotRead(x, i)` (R51). No rule calls it with `i` outside 0 to N - 1; there it gives `(+0.0, +0.0)` (log 12). -/
def slotRead (s : State) (x : Slot) (i : Nat) : Cplx := (slotOf s x).getD i cZero

/-- `SlotWrite(x, i, c)` (R51). No rule calls it with `i` outside 0 to N - 1; there it writes nothing (log 12). -/
def slotWrite (x : Slot) (i : Nat) (c : Cplx) (s : State) : State :=
  setSlot x ((slotOf s x).set i c) s

/-- `for i in 0..N-1: SlotWrite(x, i, (0, 0))`, the clear of `P.START` (R114). -/
def clearSlot (x : Slot) (s : State) : State := setSlot x (List.replicate s.cfg.n cZero) s

/-- `SpecWrite(k, c)` for every bin of the buffer at once, as `C.FFT` does (R53). -/
def writeSpectrum (bins : List Cplx) (s : State) : State := { s with spec := bins }

/-- The four bytes of a 32-bit value in `BYTE_ORDER` (R57). -/
def emit32 (o : ByteOrder) (v : Word32) : List Byte :=
  match o with
  | .le => [v.extractLsb' 0 8, v.extractLsb' 8 8, v.extractLsb' 16 8, v.extractLsb' 24 8]
  | .be => [v.extractLsb' 24 8, v.extractLsb' 16 8, v.extractLsb' 8 8, v.extractLsb' 0 8]

/-- Appends a packet's bytes to `OUT`, whole (R56). -/
def appendOut (bytes : List Byte) (s : State) : State := { s with out := s.out ++ bytes }

/-- Writes `FULL[x]` (R26). -/
def setFull (x : Slot) (b : Bool) (s : State) : State :=
  match x with
  | .s0 => { s with full0 := b }
  | .s1 => { s with full1 := b }

/-- Entering a critical section increments `CONCURRENT` (R25). -/
def enter (s : State) : State := { s with concurrent := s.concurrent + 1 }

/-- `Flip()` (R113). -/
def flipRoles (s : State) : State :=
  { setFull (otherSlot s.active) false s with active := otherSlot s.active }

/-- The flip condition of `Exit()` once `CONCURRENT` has been decremented (R112). -/
def flipDue (s : State) : Bool := s.concurrent == 0 && fullOf s s.active

/-- `Exit()` (R112): the state it leaves and whether it flipped. -/
def exitSection (s : State) : State × Bool :=
  let s' := { s with concurrent := s.concurrent - 1 }
  if flipDue s' then (flipRoles s', true) else (s', false)

/-- Reset (R250, R251): every piece of the block's state takes its reset value, whatever it was. The configuration stays
(R39), and so does what the agents hold at the ports; the reset input is consumed (log 9). -/
def applyReset (s : State) : State :=
  { State.initial s.cfg with
    pIn := s.pIn, cIn := s.cIn, pResp := s.pResp, cResp := s.cResp, cur := s.cur, grants := s.grants, turn := s.turn }

end Sys2Proof.Machine
end

