-- ==== Sys2Proof/Machine/Compress.lean ====
section
/-! DEFINITION. The spectrum compressor and the packet encoder (spec/42_compress.md R181 to R190). -/

namespace Sys2Proof.Machine

/-- The peak measure `L1(b)` (R181). -/
def binL1 (b : Cplx) : Word32 := fadd (fabs b.re) (fabs b.im)

/-- The squared magnitude `SQ(b)` (R182). -/
def binSq (b : Cplx) : Word32 := fadd (fmul b.re b.re) (fmul b.im b.im)

/-- `SpecRead(k)`, bin `k` of a spectrum (spec/20_memory.md R53). No rule calls it with `k` above M; there it gives
`(+0.0, +0.0)` (log 12). -/
def binAt (bins : List Cplx) (k : Nat) : Cplx := bins.getD k cZero

/-- The reference peak of bins 0 to `m` (R183): scanned in ascending order, strictly greater replaces. -/
def peakIndex (bins : List Cplx) (m : Nat) : Nat :=
  (List.range m).foldl (fun p k => if flt (binL1 (binAt bins p)) (binL1 (binAt bins (k + 1))) then k + 1 else p) 0

/-- The peak's squared magnitude `psq` (R183). -/
def peakSq (bins : List Cplx) (m : Nat) : Word32 := binSq (binAt bins (peakIndex bins m))

/-- Silence (R184): `feq(psq, +0.0)`. -/
def isSilent (psq : Word32) : Bool := feq psq fPosZero

/-- The reciprocal `r`, computed once per packet (R185). -/
def reciprocal (psq : Word32) : Word32 := fdiv fOne psq

/-- The inclusion test of a bin (R186). -/
def binIncluded (thresholdSq r : Word32) (b : Cplx) : Bool := fge (fmul (binSq b) r) thresholdSq

/-- The indices of the included bins, ascending (R186, R187); none for Silence (R184). -/
def includedBins (c : Config) (bins : List Cplx) : List Nat :=
  let psq := peakSq bins c.m
  if isSilent psq then []
  else (List.range (c.m + 1)).filter fun k => binIncluded c.thresholdSq (reciprocal psq) (binAt bins k)

/-- The terminator `0x7FC00000` (R188). -/
def terminator : Word32 := 0x7FC00000

/-- One entry (R187): the index, the real part, the imaginary part. -/
def emitEntry (o : ByteOrder) (k : Nat) (b : Cplx) : List Byte :=
  emit32 o (BitVec.ofNat 32 k) ++ emit32 o b.re ++ emit32 o b.im

/-- The entries of a list of indices. -/
def emitEntries (o : ByteOrder) (bins : List Cplx) (ks : List Nat) : List Byte :=
  ks.flatMap fun k => emitEntry o k (binAt bins k)

/-- The whole packet (R189): the entries and the terminator. -/
def packet (c : Config) (bins : List Cplx) : List Byte :=
  emitEntries c.byteOrder bins (includedBins c bins) ++ emit32 c.byteOrder terminator

/-- `C.COMPRESS` (R190): needs a spectrum, no held read; `DATA` is the number of entries. -/
def execCCompress (s : State) : Host.Outcome State Fault Refusal :=
  if !s.specValid then .next (raiseFault .noSpectrum s)
  else
    .next (respond { ok := true, data := BitVec.ofNat 32 (includedBins s.cfg s.spec).length }
      (appendOut (packet s.cfg s.spec) s))

end Sys2Proof.Machine
end

