-- ==== Sys2Proof/Machine/Control.lean ====
section
/-! DEFINITION. The control and status commands (spec/43_control.md R210 to R215). -/

namespace Sys2Proof.Machine

/-- `NOP` (R210). -/
def execNop (s : State) : Host.Outcome State Fault Refusal := .next (respond { ok := true } s)

/-- The value of each selector (R211). -/
def statusValue (s : State) : Selector → Word32
  | .status => statusWord s
  | .fill => fillWord s
  | .config => configWord s.cfg
  | .thresh => s.cfg.thresholdSq

/-- `RD.STATUS` (R211). -/
def execRdStatus (sel : Word32) (s : State) : Host.Outcome State Fault Refusal :=
  match selectorOf sel with
  | none => .next (raiseFault .badSelector s)
  | some x => .next (respond { ok := true, data := statusValue s x } s)

end Sys2Proof.Machine
end

