-- ==== Sys2Proof/Machine/Fft.lean ====
section
/-! DEFINITION. The real FFT engine (spec/41_fft.md R154 to R160). -/

namespace Sys2Proof.Machine

/-- Element `i` of a half or of a Window. -/
def elemAt (a : List Cplx) (i : Nat) : Cplx := a.getD i cZero

/-- `bitrev_L(i)` (R155). -/
def bitrev : Nat → Nat → Nat
  | 0, _ => 0
  | l + 1, i => (i % 2) * 2 ^ l + bitrev l (i / 2)

/-- One step of the bit-reversal permutation (R156): `if i < j then swap a[i] and a[j]`. -/
def swapStep (l : Nat) (a : List Cplx) (i : Nat) : List Cplx :=
  let j := bitrev l i
  if i < j then (a.set i (elemAt a j)).set j (elemAt a i) else a

/-- The bit-reversal permutation (R156): `for i in 0..M-1`. -/
def bitrevPermute (l : Nat) (a : List Cplx) : List Cplx := (List.range (2 ^ l)).foldl (swapStep l) a

/-- One butterfly (R156) on the pair at `i` and `j`. -/
def butterfly (w : Cplx) (i j : Nat) (a : List Cplx) : List Cplx :=
  let u := elemAt a i
  let t := cmul w (elemAt a j)
  (a.set i (cadd u t)).set j (csub u t)

/-- The butterflies of one sub-transform of length `2 h` that starts at `st` (R156): `for j in 0..h-1`. -/
def butterflyBlock (c : Config) (h st : Nat) (a : List Cplx) : List Cplx :=
  (List.range h).foldl (fun a j => butterfly (twRead c (j * (c.n / (2 * h)))) (st + j) (st + j + h) a) a

/-- One pass (R156): the sub-transforms of length `2 h` that start at `0, 2 h, ..., M - 2 h`. -/
def butterflyPass (c : Config) (h : Nat) (a : List Cplx) : List Cplx :=
  (List.range (c.m / (2 * h))).foldl (fun a b => butterflyBlock c h (b * (2 * h)) a) a

/-- `HalfFFT(a)` (R156): the permutation, then the passes with `h = 1, 2, 4, ..., M/2`. -/
def halfFft (c : Config) (a : List Cplx) : List Cplx :=
  (List.range (c.log2n - 1)).foldl (fun a p => butterflyPass c (2 ^ p) a) (bitrevPermute (c.log2n - 1) a)

/-- `E[m] = x[2m]` (R154). -/
def evenHalf (c : Config) (x : List Cplx) : List Cplx := (List.range c.m).map fun m => elemAt x (2 * m)

/-- `O[m] = x[2m + 1]` (R154). -/
def oddHalf (c : Config) (x : List Cplx) : List Cplx := (List.range c.m).map fun m => elemAt x (2 * m + 1)

/-- The combine step (R157): bins 0 to M - 1, the multiplication by `TW[0]` included (R162). -/
def combineBins (c : Config) (e o : List Cplx) : List Cplx :=
  (List.range c.m).map fun i => cadd (elemAt e i) (cmul (twRead c i) (elemAt o i))

/-- The Nyquist bin M (R158). -/
def nyquistBin (e o : List Cplx) : Cplx := csub (elemAt e 0) (elemAt o 0)

/-- The M + 1 bins of a Window `x` (R154 to R158). -/
def realFft (c : Config) (x : List Cplx) : List Cplx :=
  let e := halfFft c (evenHalf c x)
  let o := halfFft c (oddHalf c x)
  combineBins c e o ++ [nyquistBin e o]

/-- `C.FFT` (R160): the slot is only read. -/
def execCFft (s : State) : Host.Outcome State Fault Refusal :=
  if !s.rIn then .next (raiseFault .cNotReading s)
  else
    let t := writeSpectrum (realFft s.cfg (slotOf s (readSlot s))) s
    .next (respond { ok := true } { t with specValid := true })

end Sys2Proof.Machine
end

