-- ==== Sys2Proof/Machine/Handoff.lean ====
section
/-! DEFINITION. The five commands of the handoff buffer (spec/40_handoff.md R114 to R119). -/

namespace Sys2Proof.Machine

/-- `P.START` (R114) with the Missed Deadline detection (R115): the slot is compared first and cleared only when it differs
from the one last published. -/
def execPStart (s : State) : Host.Outcome State Fault Refusal :=
  if s.md then .next (raiseFault .ingestHalted s)
  else if s.wIn then .next (raiseFault .pReenter s)
  else
    let t := enter { s with wIn := true }
    let u := if sameSlot s then { t with md := true } else clearSlot s.active t
    .next (respond { ok := true, slot := s.active, same := sameSlot s } { u with fill := 0 })

/-- `P.PUSH` (R116). -/
def execPPush (sample : Word32) (s : State) : Host.Outcome State Fault Refusal :=
  if s.md then .next (raiseFault .ingestHalted s)
  else if !s.wIn then .next (raiseFault .pNotWriting s)
  else if s.fill = s.cfg.n then .next (raiseFault .windowOverflow s)
  else
    let t := slotWrite s.active s.fill (sampleElement sample) s
    let u := { t with fill := s.fill + 1 }
    .next (respond { ok := true, data := fillWord u } u)

/-- `P.STOP` (R117). -/
def execPStop (s : State) : Host.Outcome State Fault Refusal :=
  if s.md then .next (raiseFault .ingestHalted s)
  else if !s.wIn then .next (raiseFault .pNotWriting s)
  else if s.fill ≠ s.cfg.n then .next (raiseFault .windowIncomplete s)
  else
    let t := { setFull s.active true s with wIn := false, lastWValid := true, lastW := s.active }
    let e := exitSection t
    .next (respond { ok := true, slot := s.active, flip := e.2 } e.1)

/-- `C.START` (R118): no new Window is no error and changes nothing (R123). -/
def execCStart (s : State) : Host.Outcome State Fault Refusal :=
  if s.rIn then .next (raiseFault .cReenter s)
  else if fullOf s (readSlot s) then
    .next (respond { ok := true, valid := true, slot := readSlot s } (enter { s with rIn := true }))
  else .next (respond { ok := true } s)

/-- `C.END` (R119). -/
def execCEnd (s : State) : Host.Outcome State Fault Refusal :=
  if !s.rIn then .next (raiseFault .cNotReading s)
  else
    let e := exitSection { setFull (readSlot s) false s with rIn := false }
    .next (respond { ok := true, flip := e.2 } e.1)

end Sys2Proof.Machine
end

