-- ==== Sys2Proof/Machine/Dispatch.lean ====
section
/-! DEFINITION. The dispatch: one arm per command, each a call of its meaning (spec/30_encoding.md R84). -/

namespace Sys2Proof.Machine

def exec (i : Instr) (s : State) : Host.Outcome State Fault Refusal :=
  match i with
  | .nop => Sys2Proof.Machine.execNop s
  | .pStart => Sys2Proof.Machine.execPStart s
  | .pPush sample => Sys2Proof.Machine.execPPush sample s
  | .pStop => Sys2Proof.Machine.execPStop s
  | .cStart => Sys2Proof.Machine.execCStart s
  | .cFft => Sys2Proof.Machine.execCFft s
  | .cEnd => Sys2Proof.Machine.execCEnd s
  | .cCompress => Sys2Proof.Machine.execCCompress s
  | .rdStatus sel => Sys2Proof.Machine.execRdStatus sel s

end Sys2Proof.Machine
end

