-- ==== Sys2Proof/Machine/Ports.lean ====
section
/-! DEFINITION. The command ports: which pending command goes next (spec/40_handoff.md R110, spec/20_memory.md R67), and
what the outside world can do to the block between two steps (spec/70_reset_and_hazards.md R250, spec/10_state.md R37). -/

namespace Sys2Proof.Machine

/-- What the next step has to serve. -/
inductive Arrival where
  /-- Neither port has a command pending. -/
  | idle
  /-- The command word `w` of port `p`; `s` is the state with that word taken from its port. -/
  | command (p : Port) (w : Word64) (s : State)

/-- The command words pending on a port (R21). -/
def pendingOn (s : State) : Port → List Word64
  | .portP => s.pIn
  | .portC => s.cIn

/-- The response words a port has been given (R88). -/
def responsesOn (s : State) : Port → List Word64
  | .portP => s.pResp
  | .portC => s.cResp

/-- The port that goes first when both have a command pending: the host's grant, else the free value (R110, log 6). -/
def chosenPort (s : State) : Port :=
  match s.grants with
  | g :: _ => g
  | [] => Config.arbiter s.turn

/-- The choice of `chosenPort` used up. -/
def spendChoice (s : State) : State :=
  match s.grants with
  | _ :: gs => { s with grants := gs }
  | [] => { s with turn := s.turn + 1 }

/-- Takes the oldest pending command of port P, if it has one. -/
def takeP (s : State) : Arrival :=
  match s.pIn with
  | [] => .idle
  | w :: ws => .command .portP w { s with pIn := ws, cur := .portP }

/-- Takes the oldest pending command of port C, if it has one. -/
def takeC (s : State) : Arrival :=
  match s.cIn with
  | [] => .idle
  | w :: ws => .command .portC w { s with cIn := ws, cur := .portC }

/-- The next command in the serial order (R67): each port's own order is kept, and a port alone with a pending command
waits for nothing (R73). -/
def arrival (s : State) : Arrival :=
  if s.cIn.isEmpty then takeP s
  else if s.pIn.isEmpty then takeC s
  else
    match chosenPort s with
    | .portP => takeP (spendChoice s)
    | .portC => takeC (spendChoice s)

/-- The port the word is placed on when the model itself places one: C for a command only C accepts, else P (log 17). -/
def placementPort (w : Word64) : Port :=
  match decodeWord w with
  | .ok i => if i.acceptedOn .portP then .portP else .portC
  | .error _ => .portP

/-- Puts a command word where the next step takes it: at the head of its port, that port granted the coming choice if the
other port has a command pending too, and no reset asserted (log 17). -/
def placeNext (w : Word64) (s : State) : State :=
  match placementPort w with
  | .portP =>
    { s with pIn := w :: s.pIn, resetIn := false, grants := if s.cIn.isEmpty then s.grants else .portP :: s.grants }
  | .portC =>
    { s with cIn := w :: s.cIn, resetIn := false, grants := if s.pIn.isEmpty then s.grants else .portC :: s.grants }

/-- What the outside world can do between two steps. -/
inductive HostEvent where
  /-- The agent of port `p` issues a command word (R21, R80). -/
  | issue (p : Port) (w : Word64)
  /-- The platform settles that port `p` goes first at one more coming choice (R110). -/
  | grant (p : Port)
  /-- The reset input is asserted (R250). -/
  | assertReset
  /-- The outbound transport takes `n` bytes from the front of `OUT` (R37, R56). -/
  | takeBytes (n : Nat)
  deriving DecidableEq, Repr

/-- The effect of an event of the outside world; it touches the ports and the front of `OUT` only. -/
def applyEvent (e : HostEvent) (s : State) : State :=
  match e with
  | .issue .portP w => { s with pIn := s.pIn ++ [w] }
  | .issue .portC w => { s with cIn := s.cIn ++ [w] }
  | .grant p => { s with grants := s.grants ++ [p] }
  | .assertReset => { s with resetIn := true }
  | .takeBytes n => { s with out := s.out.drop n }

/-- A legal `THRESHOLD_SQ` (spec/00_scope.md R6, R7): no NaN, from 0 (`-0.0` included) to 1.0. -/
def thresholdLegal (t : Word32) : Bool := fge t fPosZero && fge fOne t

/-- A legal configuration (R6, R7): `LOG2N` from 1 to 30, a legal threshold, the table of spec/41_fft.md R152. -/
def configLegal (c : Config) : Bool :=
  decide (1 ≤ c.log2n ∧ c.log2n ≤ 30) && thresholdLegal c.thresholdSq && decide (c.tw = twiddleTable c.log2n)

/-- Building a block (R7): a malformed configuration is refused, any other gives the block in its reset state (R254). -/
def State.build (c : Config) : Host.Outcome State Fault Refusal :=
  if configLegal c then .next (State.initial c) else .refused .notABlock

end Sys2Proof.Machine
end

