-- ==== Sys2Proof/Machine/Step.lean ====
section
/-! DEFINITION. One step of the block: reset if it is asserted, else the next command of the serial order, decoded and
executed (or faulted) whole (spec/40_handoff.md R110), else nothing (spec/20_memory.md R55). -/

namespace Sys2Proof.Machine

/-- A command word on port `p`, the word already taken from the port: the decode checks of R86, then its rule. -/
def runCommand (p : Port) (w : Word64) (s : State) : Host.Outcome State Fault Refusal :=
  match decode p w with
  | .error f => .next (raiseFault f s)
  | .ok i => exec i s

/-- One step: reset lands between commands (R250); with nothing pending the block holds its state (R239, log 8). -/
def step (s : State) : Host.Outcome State Fault Refusal :=
  if s.resetIn then .next (applyReset s)
  else
    match arrival s with
    | .idle => .next s
    | .command p w t => runCommand p w t

/-- The state whose very next step runs the given word of the opcode table (log 5, log 17). -/
def State.withFetchWord (s : State) (nbits w : Nat) : State := placeNext (tableWord nbits w) s

end Sys2Proof.Machine
end

