-- ==== Sys2Proof/Safety.lean ====
section
/-! DEFINITION. The terms the statements use: the invariant of every reachable state, what the spec's tables and formulas say
in a form of their own (faults, packets, rounding, the transform), and when two states look alike to both agents. -/

namespace Sys2Proof.Machine

/-! ## The invariant -/

/-- The storage spaces have the sizes of spec/20_memory.md R50 and `FILL` is in its range (R29). -/
structure State.Sized (s : State) : Prop where
  slot0_length : s.slot0.length = s.cfg.n
  slot1_length : s.slot1.length = s.cfg.n
  spec_length : s.spec.length = s.cfg.m + 1
  fill_le : s.fill ≤ s.cfg.n

/-- What holds of every reachable state of the handoff buffer. -/
structure State.Inv (s : State) : Prop where
  /-- `CONCURRENT = W_IN + R_IN` (R120). -/
  concurrent_eq : s.concurrent.toNat = s.wIn.toNat + s.rIn.toNat
  /-- With nobody inside, no published Window waits in the write slot (R121). -/
  no_pending_outside : s.concurrent = 0 → fullOf s s.active = false
  /-- The read slot stays full during the hold (R118, R119). -/
  held_full : s.rIn = true → fullOf s (readSlot s) = true
  /-- The write slot is full exactly while it is the slot last published (R115, R117). -/
  full_active : fullOf s s.active = sameSlot s
  /-- A full slot has been published (R117). -/
  full_published : ∀ x, fullOf s x = true → s.lastWValid = true
  /-- After a Missed Deadline the producer stays inside (R128). -/
  md_inside : s.md = true → s.wIn = true
  /-- While the producer is inside, the write slot holds a published Window exactly after a Missed Deadline: the Window it
  stranded (R115, R128). -/
  md_stranded : s.wIn = true → fullOf s s.active = s.md
  /-- After a Missed Deadline the read slot is full only while it is held (R128). -/
  md_read : s.md = true → fullOf s (readSlot s) = s.rIn
  /-- Codes above `0x0C` are never produced (R221). -/
  err_code : s.err.toNat ≤ 12
  /-- The sizes. -/
  sized : s.Sized

/-- Every NaN in the spectrum buffer is the canonical one, once `C.FFT` has written it (spec/41_fft.md R161). -/
def State.CanonicalSpectrum (s : State) : Prop :=
  s.specValid = true → ∀ b ∈ s.spec, (fIsNan b.re = true → b.re = fNan) ∧ (fIsNan b.im = true → b.im = fNan)

/-- Every element of the slot being written and of a full slot has the imaginary part `+0.0` (R90, R131). -/
def State.RealWindows (s : State) : Prop :=
  ∀ x, (fullOf s x = true ∨ (s.wIn = true ∧ x = s.active)) → ∀ e ∈ slotOf s x, e.im = fPosZero

/-! ## Faults -/

/-- The table of spec/60_exceptions.md R224, row by row in its order: whether the row's condition holds of the command
word `w` on port `p` in state `s`, and its code. -/
def faultRows (p : Port) (w : Word64) (s : State) : List (Bool × FaultCode) :=
  let opc := w.toNat % 256
  let rsv := w.toNat / 256 % 2 ^ 24
  let operand := w.toNat / 2 ^ 32
  [ (!([0x00, 0x01, 0x02, 0x03, 0x11, 0x12, 0x13, 0x14, 0x20].contains opc), .illegalOpcode),
    (rsv != 0, .reservedNonzero),
    (operand != 0 && opc != 0x02 && opc != 0x20, .reservedNonzero),
    (([0x01, 0x02, 0x03].contains opc && p == .portC) || ([0x11, 0x12, 0x13, 0x14].contains opc && p == .portP), .wrongPort),
    (opc == 0x20 && decide (3 < operand), .badSelector),
    ([0x01, 0x02, 0x03].contains opc && s.md, .ingestHalted),
    (opc == 0x01 && s.wIn, .pReenter),
    ([0x02, 0x03].contains opc && !s.wIn, .pNotWriting),
    (opc == 0x02 && s.fill == s.cfg.n, .windowOverflow),
    (opc == 0x03 && s.fill != s.cfg.n, .windowIncomplete),
    (opc == 0x11 && s.rIn, .cReenter),
    ([0x12, 0x13].contains opc && !s.rIn, .cNotReading),
    (opc == 0x14 && !s.specValid, .noSpectrum) ]

/-- The fault a command reports: "the first in this order whose condition holds" (R224). -/
def firstFault (p : Port) (w : Word64) (s : State) : Option FaultCode :=
  ((faultRows p w s).find? fun row => row.1).map fun row => row.2

/-- The state after a fault with the given code number (R222, R223): `OK = 0` and the code answered, `ERR` written only
while it is 0, nothing else changed. -/
def faulted (code : BitVec 8) (s : State) : State :=
  respond { errcode := code } { s with err := if s.err = 0 then code else s.err }

/-! ## Binary32 values -/

/-- No infinity and no NaN. -/
def f32Finite (a : Word32) : Prop := a.toNat / 2 ^ 23 % 256 < 255

/-- The value of a finite binary32 by the fields of IEEE-754: sign, 8-bit exponent, 23-bit fraction. -/
def f32Value (a : Word32) : ℚ :=
  let e : Nat := a.toNat / 2 ^ 23 % 256
  let f : Nat := a.toNat % 2 ^ 23
  let mag : ℚ := if e = 0 then (f : ℚ) / 2 ^ 149 else (1 + (f : ℚ) / 2 ^ 23) * 2 ^ ((e : ℤ) - 127)
  if 2 ^ 31 ≤ a.toNat then -mag else mag

/-- A NaN by the fields of IEEE-754: the greatest exponent and a fraction that is not zero. -/
def f32Nan (a : Word32) : Prop := a.toNat / 2 ^ 23 % 256 = 255 ∧ a.toNat % 2 ^ 23 ≠ 0

/-- The infinity of a sign, negative where `neg`. -/
def f32Inf (neg : Bool) : Word32 := if neg then 0xFF800000 else 0x7F800000

/-- The zero of a sign, `-0.0` where `neg`. -/
def f32Zero (neg : Bool) : Word32 := if neg then 0x80000000 else 0x00000000

/-- The value of an operand that is no NaN, in the order of the comparisons (spec/42_compress.md R180): the infinities lie
beyond every finite value. -/
def f32Extended (a : Word32) : WithBot (WithTop ℚ) :=
  if a = 0x7F800000 then ((⊤ : WithTop ℚ) : WithBot (WithTop ℚ))
  else if a = 0xFF800000 then ⊥
  else ((f32Value a : WithTop ℚ) : WithBot (WithTop ℚ))

/-- `b` is the real number `x` rounded to binary32, to nearest, ties to even, overflow to a signed infinity (R150). -/
def RoundsTo (x : ℝ) (b : Word32) : Prop :=
  (|x| < 2 ^ 128 - 2 ^ 103 ∧ f32Finite b ∧
    (∀ c, f32Finite c → |(f32Value b : ℝ) - x| ≤ |(f32Value c : ℝ) - x|) ∧
    (∀ c, f32Finite c → |(f32Value c : ℝ) - x| = |(f32Value b : ℝ) - x| → f32Value c ≠ f32Value b → b.toNat % 2 = 0)) ∨
  (2 ^ 128 - 2 ^ 103 ≤ |x| ∧ b = if x < 0 then 0xFF800000 else 0x7F800000)

/-! ## The transform -/

/-- Element `i` after one butterfly pass, from the elements before it (R156, R163). -/
def passElement (c : Config) (h : Nat) (a : List Cplx) (i : Nat) : Cplx :=
  let j := i % (2 * h)
  if j < h then cadd (elemAt a i) (cmul (twRead c (j * (c.n / (2 * h)))) (elemAt a (i + h)))
  else csub (elemAt a (i - h)) (cmul (twRead c ((j - h) * (c.n / (2 * h)))) (elemAt a i))

/-- The radix-2 decimation-in-time transform by recursion: split into even and odd elements, transform each, combine with
the size-`2^l` roots `TW[j * (N / 2^l)]`. -/
def recursiveDit (c : Config) : Nat → List Cplx → List Cplx
  | 0, a => a
  | l + 1, a =>
    let e := recursiveDit c l ((List.range (2 ^ l)).map fun m => elemAt a (2 * m))
    let o := recursiveDit c l ((List.range (2 ^ l)).map fun m => elemAt a (2 * m + 1))
    let t := fun j => cmul (twRead c (j * (c.n / 2 ^ (l + 1)))) (elemAt o j)
    ((List.range (2 ^ l)).map fun j => cadd (elemAt e j) (t j)) ++
      ((List.range (2 ^ l)).map fun j => csub (elemAt e j) (t j))

/-! ## Packets -/

/-- One 32-bit field and the bytes after it (spec/42_compress.md R193). -/
def readField (o : ByteOrder) : List Byte → Option (Word32 × List Byte)
  | b0 :: b1 :: b2 :: b3 :: rest =>
    match o with
    | .le => some (b3 ++ b2 ++ b1 ++ b0, rest)
    | .be => some (b0 ++ b1 ++ b2 ++ b3, rest)
  | _ => none

/-- One entry as a receiver reads it: the index and the two parts. -/
structure Entry where
  index : Word32
  value : Cplx
  deriving DecidableEq, Repr

/-- The receiver of R193: reads entries until the terminator stands at an index position; gives the entries and the bytes
after the packet. At most `fuel` fields are read at index positions. -/
def parsePacket (o : ByteOrder) : Nat → List Byte → Option (List Entry × List Byte)
  | 0, _ => none
  | fuel + 1, bytes =>
    match readField o bytes with
    | none => none
    | some (k, rest) =>
      if k = 0x7FC00000 then some ([], rest)
      else
        match readField o rest with
        | none => none
        | some (re, rest) =>
          match readField o rest with
          | none => none
          | some (im, rest) =>
            match parsePacket o fuel rest with
            | none => none
            | some (es, rest) => some (⟨k, ⟨re, im⟩⟩ :: es, rest)

/-! ## What the agents can observe -/

/-- The contents of slot `x` can still reach a response or a packet: it is full, or it is being written (R252). -/
def slotLive (s : State) (x : Slot) : Bool := fullOf s x || (s.wIn && x == s.active)

/-- The two states differ at most in contents of the slots and of the spectrum buffer that are unspecified (R252): dead
slots, and the buffer before the first `C.FFT`. -/
structure SameButUnspecified (s t : State) : Prop where
  rest_eq : t = { s with slot0 := t.slot0, slot1 := t.slot1, spec := t.spec }
  slots_eq : ∀ x, slotLive s x = true → slotOf t x = slotOf s x
  spec_eq : s.specValid = true → t.spec = s.spec

/-! ## Runs of one command -/

/-- `P.PUSH` of each sample in order, stopping where one gives no next state. -/
def pushAll : List Word32 → State → Host.Outcome State Fault Refusal
  | [], s => .next s
  | x :: xs, s =>
    match exec (.pPush x) s with
    | .next t => pushAll xs t
    | .fault f => .fault f
    | .refused r => .refused r

end Sys2Proof.Machine
end

