-- ==== Sys2Proof/Certificates/Slice0/Obligations.lean ====
section
/-! DEFINITION. The statements for the provers, in the order of OBLIGATIONS.json. Where a statement gives a next state as
`{ s with … }`, every field it does not name is unchanged: that is the frame. -/

open Sys2Proof Sys2Proof.Machine

/-! ## Encoding -/

/-- No bit of a command is dropped: every command, with every operand, decodes from its own word, on every port that
accepts it (R80, R83, R84). -/
def Obligations.DecodeOfEncodeIsTheCommand : Prop :=
  ∀ i : Instr, decodeWord (encode i) = .ok i ∧ ∀ p, i.acceptedOn p = true → decode p (encode i) = .ok i

/-- Each accepted word has one meaning: it is the word of the command it decodes to, on a port that accepts it. -/
def Obligations.EncodeOfDecodeIsTheWord : Prop :=
  ∀ (p : Port) (w : Word64) (i : Instr), decode p w = .ok i → encode i = w ∧ i.acceptedOn p = true

/-- The checks of R86 in their order, in terms of the numbers the fields of the word are, and the command an accepted word
selects with its operand. -/
def Obligations.DecodeRunsTheChecksInOrder : Prop :=
  ∀ (p : Port) (w : Word64),
    let opc := w.toNat % 256
    let rsv := w.toNat / 256 % 2 ^ 24
    let operand := w.toNat / 2 ^ 32
    (opc ∉ [0x00, 0x01, 0x02, 0x03, 0x11, 0x12, 0x13, 0x14, 0x20] → decode p w = .error .illegalOpcode) ∧
    (opc ∈ [0x00, 0x01, 0x02, 0x03, 0x11, 0x12, 0x13, 0x14, 0x20] → rsv ≠ 0 → decode p w = .error .reservedNonzero) ∧
    (opc ∈ [0x00, 0x01, 0x03, 0x11, 0x12, 0x13, 0x14] → rsv = 0 → operand ≠ 0 → decode p w = .error .reservedNonzero) ∧
    (opc ∈ [0x01, 0x02, 0x03] → rsv = 0 → (operand = 0 ∨ opc = 0x02) → p = .portC → decode p w = .error .wrongPort) ∧
    (opc ∈ [0x11, 0x12, 0x13, 0x14] → rsv = 0 → operand = 0 → p = .portP → decode p w = .error .wrongPort) ∧
    (opc = 0x00 → rsv = 0 → operand = 0 → decode p w = .ok .nop) ∧
    (opc = 0x01 → rsv = 0 → operand = 0 → p = .portP → decode p w = .ok .pStart) ∧
    (opc = 0x02 → rsv = 0 → p = .portP → decode p w = .ok (.pPush (BitVec.ofNat 32 operand))) ∧
    (opc = 0x03 → rsv = 0 → operand = 0 → p = .portP → decode p w = .ok .pStop) ∧
    (opc = 0x11 → rsv = 0 → operand = 0 → p = .portC → decode p w = .ok .cStart) ∧
    (opc = 0x12 → rsv = 0 → operand = 0 → p = .portC → decode p w = .ok .cFft) ∧
    (opc = 0x13 → rsv = 0 → operand = 0 → p = .portC → decode p w = .ok .cEnd) ∧
    (opc = 0x14 → rsv = 0 → operand = 0 → p = .portC → decode p w = .ok .cCompress) ∧
    (opc = 0x20 → rsv = 0 → decode p w = .ok (.rdStatus (BitVec.ofNat 32 operand)))

/-- The command words of R95, written out there. -/
def Obligations.ExampleWordsDecode : Prop :=
  decode .portP 0x0000000000000000 = .ok .nop ∧
  decode .portP 0x0000000000000001 = .ok .pStart ∧
  decode .portP 0x3F80000000000002 = .ok (.pPush 0x3F800000) ∧
  decode .portP 0xBF00000000000002 = .ok (.pPush 0xBF000000) ∧
  decode .portP 0x7FC0000100000002 = .ok (.pPush 0x7FC00001) ∧
  decode .portP 0x0000000000000003 = .ok .pStop ∧
  decode .portC 0x0000000000000011 = .ok .cStart ∧
  decode .portC 0x0000000000000012 = .ok .cFft ∧
  decode .portC 0x0000000000000013 = .ok .cEnd ∧
  decode .portC 0x0000000000000014 = .ok .cCompress ∧
  decode .portC 0x0000000100000020 = .ok (.rdStatus 1) ∧
  decode .portP 0x0000000300000020 = .ok (.rdStatus 3)

/-- Every field of the response word at its bits, every other bit 0 (R88), and the numbers of the twelve fault codes
(R221). -/
def Obligations.ResponseWordLayoutAndFaultCodes : Prop :=
  (∀ r : Response,
    (responseWord r).toNat =
      r.ok.toNat + 2 * r.valid.toNat + 4 * (slotBit r.slot).toNat + 8 * r.same.toNat + 16 * r.flip.toNat +
        2 ^ 8 * r.errcode.toNat + 2 ^ 32 * r.data.toNat) ∧
  FaultCode.illegalOpcode.toByte = 0x01 ∧ FaultCode.reservedNonzero.toByte = 0x02 ∧ FaultCode.wrongPort.toByte = 0x03 ∧
  FaultCode.pReenter.toByte = 0x04 ∧ FaultCode.pNotWriting.toByte = 0x05 ∧ FaultCode.windowOverflow.toByte = 0x06 ∧
  FaultCode.windowIncomplete.toByte = 0x07 ∧ FaultCode.ingestHalted.toByte = 0x08 ∧ FaultCode.cReenter.toByte = 0x09 ∧
  FaultCode.cNotReading.toByte = 0x0A ∧ FaultCode.noSpectrum.toByte = 0x0B ∧ FaultCode.badSelector.toByte = 0x0C

/-! ## Steps, ports and reset -/

/-- A step runs the decoded command: with no reset asserted, the command word that goes next is taken from its port, the step
is `runCommand` of it at the state with the word taken, and, if it decodes, `exec` of the command there. Where one port alone
has a word pending, that is its oldest word (R21, R110). -/
def Obligations.StepRunsTheDecodedCommand : Prop :=
  (∀ s p w t, s.resetIn = false → arrival s = .command p w t → step s = runCommand p w t) ∧
  (∀ s p w t i, s.resetIn = false → arrival s = .command p w t → decode p w = .ok i → step s = exec i t) ∧
  (∀ s w ws, s.pIn = w :: ws → s.cIn = [] →
    arrival s = .command .portP w { s with pIn := ws, cur := .portP }) ∧
  (∀ s w ws, s.pIn = [] → s.cIn = w :: ws →
    arrival s = .command .portC w { s with cIn := ws, cur := .portC })

/-- Both orders of two pending commands are admitted: the port the host's grant names goes first; with no grant left, the
port the free value names, whichever it is (R110; the grants and the free value are the model's form of it, log 6). -/
def Obligations.EitherPortMayGoFirst : Prop :=
  ∀ s w ws v vs, s.pIn = w :: ws → s.cIn = v :: vs →
    (∀ gs, s.grants = .portP :: gs → arrival s = .command .portP w { s with pIn := ws, cur := .portP, grants := gs }) ∧
    (∀ gs, s.grants = .portC :: gs → arrival s = .command .portC v { s with cIn := vs, cur := .portC, grants := gs }) ∧
    (s.grants = [] → arrival s =
      match Config.arbiter s.turn with
      | .portP => .command .portP w { s with pIn := ws, cur := .portP, turn := s.turn + 1 }
      | .portC => .command .portC v { s with cIn := vs, cur := .portC, turn := s.turn + 1 })

/-- Progress (R73): every command completes in one step from every state, and the block can always take its next step. -/
def Obligations.EveryCommandCompletesInOneStep : Prop :=
  (∀ (i : Instr) (s : State), ∃ t, exec i s = .next t) ∧ ∀ s : State, ∃ t, step s = .next t

/-- Every step serves exactly one command, the oldest of its port, and answers it with one response word on that port; the
other port's commands and responses stay. With nothing pending the block holds its state (R21, R88, R239). -/
def Obligations.OneResponsePerCommandInPortOrder : Prop :=
  ∀ s t : State, s.resetIn = false → step s = .next t →
    (s.pIn = [] ∧ s.cIn = [] ∧ t = s) ∨
    ∃ p w r, pendingOn s p = w :: pendingOn t p ∧ responsesOn t p = responsesOn s p ++ [r] ∧ t.cur = p ∧
      ∀ q, q ≠ p → pendingOn t q = pendingOn s q ∧ responsesOn t q = responsesOn s q

/-- Reset, from every state (R250, R251): every value the table of R251 gives, and the configuration as it was. The
contents of `SLOT` and `SPEC` are left open, as there. `State.reset` has the same values. -/
def Obligations.ResetGivesTheResetValues : Prop :=
  ∀ s : State, (s.resetIn = true ∨ s = State.reset) →
    ∃ t, (if s.resetIn = true then step s = .next t else t = State.reset) ∧
      t.active = .s0 ∧ t.concurrent = 0 ∧ t.full0 = false ∧ t.full1 = false ∧ t.wIn = false ∧ t.rIn = false ∧ t.fill = 0 ∧
      t.lastWValid = false ∧ t.lastW = .s0 ∧ t.md = false ∧ t.specValid = false ∧ t.err = 0 ∧ t.out = [] ∧ t.cfg = s.cfg ∧
      t.resetIn = false ∧ irqMd t = false ∧ irqErr t = false ∧ statusWord t = 0

/-- After reset, for a block of every configuration: the first `P.START` hands out slot 0 and detects no Missed Deadline,
and `C.START` returns no Window (R253). -/
def Obligations.FirstCommandsAfterReset : Prop :=
  ∀ c : Config,
    (∃ t, exec .pStart (State.initial c) = .next t ∧ t.md = false ∧ t.wIn = true ∧
      t.pResp = [responseWord { ok := true, slot := .s0 }]) ∧
    ∃ t, exec .cStart { State.initial c with cur := .portC } = .next t ∧ t.rIn = false ∧
      t.cResp = [responseWord { ok := true, valid := false, slot := .s0 }]

/-- A malformed configuration is refused when the block is built, and every other one builds the block in its reset state
(R7): `LOG2N` outside 1 to 30, a threshold that is a NaN, negative or greater than 1.0, or another table than that of R152. -/
def Obligations.MalformedConfigurationIsRefused : Prop :=
  ∀ c : Config,
    let legal := 1 ≤ c.log2n ∧ c.log2n ≤ 30 ∧ f32Finite c.thresholdSq ∧ 0 ≤ f32Value c.thresholdSq ∧
      f32Value c.thresholdSq ≤ 1 ∧ c.tw = twiddleTable c.log2n
    (legal → State.build c = .next (State.initial c)) ∧ (¬legal → State.build c = .refused .notABlock)

/-! ## Faults -/

/-- A command word reports the first fault of the table of R224 whose condition holds, and a fault changes nothing but
`ERR`, which it writes only while it is 0; the response is the code alone (R222, R223). -/
def Obligations.FirstFaultOfTheTableAndNothingElse : Prop :=
  ∀ (p : Port) (w : Word64) (s : State) (f : FaultCode), firstFault p w s = some f →
    runCommand p w s =
      .next (respond { ok := false, errcode := f.toByte } { s with err := if s.err = 0 then f.toByte else s.err }) ∧
    (responseWord { ok := false, errcode := f.toByte }).toNat = 2 ^ 8 * f.toByte.toNat

/-- A command word for which no row of the table of R224 holds succeeds: it decodes, answers `OK = 1` with `ERRCODE = 0`,
and leaves `ERR` alone. -/
def Obligations.NoFaultMeansSuccess : Prop :=
  ∀ (p : Port) (w : Word64) (s : State), firstFault p w s = none →
    ∃ i t r, decode p w = .ok i ∧ runCommand p w s = .next t ∧ t.err = s.err ∧ r.ok = true ∧ r.errcode = 0 ∧
      responsesOn t s.cur = responsesOn s s.cur ++ [responseWord r]

/-- What no step but a reset undoes: `MD` and `SPEC_VALID` stay set, a latched `ERR` stays (R31, R32, R33), and `OUT` only
grows, by whole 32-bit fields (R56, R61). No step at all, a reset included, changes the configuration (R39). -/
def Obligations.StickyStateAndAppendOnlyOutput : Prop :=
  ∀ s t : State, step s = .next t →
    t.cfg = s.cfg ∧
    (s.resetIn = false →
      (s.md = true → t.md = true) ∧ (s.specValid = true → t.specValid = true) ∧ (s.err ≠ 0 → t.err = s.err) ∧
      ∃ bytes, t.out = s.out ++ bytes ∧ bytes.length % 4 = 0)

/-! ## The commands: results, frames, completion and faults -/

/-- `NOP` (R210): answers `OK = 1` and changes nothing. -/
def Obligations.NopDoesNothing : Prop :=
  ∀ s : State, exec .nop s = .next (respond { ok := true } s)

/-- `P.START` (R114), every path: the two faults; the Missed Deadline, which enters, sets `MD` and leaves both slots; the
normal start, which enters and clears every element of the write slot. -/
def Obligations.PStartFollowsItsRule : Prop :=
  ∀ s : State,
    (s.md = true → exec .pStart s = .next (faulted 0x08 s)) ∧
    (s.md = false → s.wIn = true → exec .pStart s = .next (faulted 0x04 s)) ∧
    (s.md = false → s.wIn = false → s.lastWValid = true → s.lastW = s.active →
      exec .pStart s = .next (respond { ok := true, slot := s.active, same := true }
        { s with wIn := true, concurrent := s.concurrent + 1, md := true, fill := 0 })) ∧
    (s.md = false → s.wIn = false → (s.lastWValid = false ∨ s.lastW ≠ s.active) →
      exec .pStart s = .next (respond { ok := true, slot := s.active, same := false }
        { s with
          wIn := true, concurrent := s.concurrent + 1, fill := 0
          slot0 := if s.active = .s0 then List.replicate (2 ^ s.cfg.log2n) ⟨0x00000000, 0x00000000⟩ else s.slot0
          slot1 := if s.active = .s1 then List.replicate (2 ^ s.cfg.log2n) ⟨0x00000000, 0x00000000⟩ else s.slot1 }))

/-- `P.PUSH` (R116), every path: the three faults; the sample stored bit for bit at element `FILL` of the write slot with
imaginary part `+0.0`, `FILL` incremented and answered. -/
def Obligations.PPushFollowsItsRule : Prop :=
  ∀ (v : Word32) (s : State),
    (s.md = true → exec (.pPush v) s = .next (faulted 0x08 s)) ∧
    (s.md = false → s.wIn = false → exec (.pPush v) s = .next (faulted 0x05 s)) ∧
    (s.md = false → s.wIn = true → s.fill = 2 ^ s.cfg.log2n → exec (.pPush v) s = .next (faulted 0x06 s)) ∧
    (s.md = false → s.wIn = true → s.fill ≠ 2 ^ s.cfg.log2n →
      exec (.pPush v) s = .next (respond { ok := true, data := BitVec.ofNat 32 (s.fill + 1) }
        { s with
          fill := s.fill + 1
          slot0 := if s.active = .s0 then s.slot0.set s.fill ⟨v, 0x00000000⟩ else s.slot0
          slot1 := if s.active = .s1 then s.slot1.set s.fill ⟨v, 0x00000000⟩ else s.slot1 }))

/-- The frame of the storing commands, element by element (R51, R62): after a `P.PUSH` that stores, element `FILL` of the
write slot reads the sample and every other element of both slots reads as before; no other command but `P.START` changes
an element, and `P.START` none of the other slot. -/
def Obligations.SlotElementsChangeOnlyWhereStored : Prop :=
  ∀ (i : Instr) (s t : State) (x : Slot) (k : Nat), s.Sized → exec i s = .next t →
    slotRead t x k =
      match i with
      | .pPush v =>
        if s.md = false ∧ s.wIn = true ∧ s.fill ≠ s.cfg.n ∧ x = s.active ∧ k = s.fill then ⟨v, 0x00000000⟩
        else slotRead s x k
      | .pStart => if s.md = false ∧ s.wIn = false ∧ t.md = false ∧ x = s.active then ⟨0x00000000, 0x00000000⟩ else slotRead s x k
      | .nop | .pStop | .cStart | .cFft | .cEnd | .cCompress | .rdStatus _ => slotRead s x k

/-- A Window pushed whole (R116, R131): from inside the write section with nothing pushed yet, N pushes complete, and the
write slot then holds exactly the N samples in push order, each with imaginary part `+0.0`; the other slot, the state word
and the spectrum stay. -/
def Obligations.PushedWindowIsStoredInOrder : Prop :=
  ∀ (s : State) (xs : List Word32), s.md = false → s.wIn = true → s.fill = 0 → s.Sized → xs.length = s.cfg.n →
    ∃ t, pushAll xs s = .next t ∧ slotOf t s.active = xs.map (fun x => ⟨x, 0x00000000⟩) ∧ t.fill = s.cfg.n ∧
      slotOf t (readSlot s) = slotOf s (readSlot s) ∧ stateWord t = stateWord s ∧ t.spec = s.spec ∧ t.out = s.out ∧
      t.wIn = true ∧ t.md = false

/-- `P.STOP` (R117), every path: the three faults; the publish that leaves the last agent and flips (`CONCURRENT` 1), and
the publish that leaves another agent inside. -/
def Obligations.PStopFollowsItsRule : Prop :=
  ∀ s : State,
    (s.md = true → exec .pStop s = .next (faulted 0x08 s)) ∧
    (s.md = false → s.wIn = false → exec .pStop s = .next (faulted 0x05 s)) ∧
    (s.md = false → s.wIn = true → s.fill ≠ 2 ^ s.cfg.log2n → exec .pStop s = .next (faulted 0x07 s)) ∧
    (s.md = false → s.wIn = true → s.fill = 2 ^ s.cfg.log2n → s.concurrent = 1 →
      exec .pStop s = .next (respond { ok := true, slot := s.active, flip := true }
        { s with
          full0 := s.active == .s0, full1 := s.active == .s1, wIn := false, lastWValid := true, lastW := s.active
          concurrent := 0, active := otherSlot s.active })) ∧
    (s.md = false → s.wIn = true → s.fill = 2 ^ s.cfg.log2n → s.concurrent ≠ 1 →
      exec .pStop s = .next (respond { ok := true, slot := s.active, flip := false }
        { s with
          full0 := s.full0 || s.active == .s0, full1 := s.full1 || s.active == .s1, wIn := false, lastWValid := true
          lastW := s.active, concurrent := s.concurrent - 1 }))

/-- `C.START` (R118), every path: the fault; no new Window, which changes nothing and is no error (R123); the grant. -/
def Obligations.CStartFollowsItsRule : Prop :=
  ∀ s : State,
    (s.rIn = true → exec .cStart s = .next (faulted 0x09 s)) ∧
    (s.rIn = false → fullOf s (otherSlot s.active) = false →
      exec .cStart s = .next (respond { ok := true, valid := false, slot := .s0 } s)) ∧
    (s.rIn = false → fullOf s (otherSlot s.active) = true →
      exec .cStart s = .next (respond { ok := true, valid := true, slot := otherSlot s.active }
        { s with rIn := true, concurrent := s.concurrent + 1 }))

/-- `C.END` (R119), every path: the fault; the release that leaves nobody inside with a publish pending and flips; every
other release. The read slot's full bit is cleared in both. -/
def Obligations.CEndFollowsItsRule : Prop :=
  ∀ s : State,
    (s.rIn = false → exec .cEnd s = .next (faulted 0x0A s)) ∧
    (s.rIn = true → s.concurrent = 1 → fullOf s s.active = true →
      exec .cEnd s = .next (respond { ok := true, flip := true }
        { s with
          full0 := s.active == .s0, full1 := s.active == .s1, rIn := false, concurrent := 0
          active := otherSlot s.active })) ∧
    (s.rIn = true → (s.concurrent ≠ 1 ∨ fullOf s s.active = false) →
      exec .cEnd s = .next (respond { ok := true, flip := false }
        { s with
          full0 := s.full0 && s.active == .s0, full1 := s.full1 && s.active == .s1, rIn := false
          concurrent := s.concurrent - 1 }))

/-- `C.FFT` (R160): the fault; the transform of the read slot, which writes every bin and `SPEC_VALID` and nothing else.
`E` and `O` are the half transforms of the even and the odd elements (R154); bins 0 to M - 1 are `E[i] + TW[i] * O[i]`,
bin 0 included (R157, R162), and bin M is `E[0] - O[0]` (R158). -/
def Obligations.CFftFollowsItsRule : Prop :=
  ∀ s : State,
    (s.rIn = false → exec .cFft s = .next (faulted 0x0A s)) ∧
    (s.rIn = true →
      ∃ bins e o, exec .cFft s = .next (respond { ok := true } { s with spec := bins, specValid := true }) ∧
        e = halfFft s.cfg ((List.range s.cfg.m).map fun m => slotRead s (otherSlot s.active) (2 * m)) ∧
        o = halfFft s.cfg ((List.range s.cfg.m).map fun m => slotRead s (otherSlot s.active) (2 * m + 1)) ∧
        bins.length = s.cfg.m + 1 ∧
        (∀ i, i < s.cfg.m → elemAt bins i = cadd (elemAt e i) (cmul (s.cfg.tw.getD i cZero) (elemAt o i))) ∧
        elemAt bins s.cfg.m = csub (elemAt e 0) (elemAt o 0))

/-- `C.COMPRESS` (R190): the fault; the packet of the spectrum buffer appended whole to `OUT`, the number of entries answered,
nothing else changed. The entries are the bins `k` whose squared magnitude (R182), scaled by the once rounded reciprocal of
the peak's (R185), is at least `THRESHOLD_SQ` (R186), in ascending order (R187), none for Silence (R184), then the terminator
(R188). -/
def Obligations.CCompressFollowsItsRule : Prop :=
  ∀ s : State,
    (s.specValid = false → exec .cCompress s = .next (faulted 0x0B s)) ∧
    (s.specValid = true →
      let bin := fun k => binAt s.spec k
      let sq := fun k => fadd (fmul (bin k).re (bin k).re) (fmul (bin k).im (bin k).im)
      let psq := sq (peakIndex s.spec s.cfg.m)
      let field := emit32 s.cfg.byteOrder
      ∃ ks : List Nat,
        exec .cCompress s =
          .next (respond { ok := true, data := BitVec.ofNat 32 ks.length }
            { s with
              out := s.out ++ ks.flatMap (fun k => field (BitVec.ofNat 32 k) ++ field (bin k).re ++ field (bin k).im) ++
                field 0x7FC00000 }) ∧
        ks.Pairwise (· < ·) ∧
        ∀ k, k ∈ ks ↔ k ≤ s.cfg.m ∧ feq psq 0x00000000 = false ∧
          fge (fmul (sq k) (fdiv 0x3F800000 psq)) s.cfg.thresholdSq = true)

/-- `RD.STATUS` (R211): selectors 0 to 3 answer the status word, `FILL`, the configuration word and `THRESHOLD_SQ`; every
other selector faults with `BAD_SELECTOR`; no state changes. -/
def Obligations.RdStatusFollowsItsRule : Prop :=
  ∀ (sel : Word32) (s : State),
    (sel.toNat = 0 → exec (.rdStatus sel) s = .next (respond { ok := true, data := statusWord s } s)) ∧
    (sel.toNat = 1 → exec (.rdStatus sel) s = .next (respond { ok := true, data := BitVec.ofNat 32 s.fill } s)) ∧
    (sel.toNat = 2 → exec (.rdStatus sel) s = .next (respond { ok := true, data := configWord s.cfg } s)) ∧
    (sel.toNat = 3 → exec (.rdStatus sel) s = .next (respond { ok := true, data := s.cfg.thresholdSq } s)) ∧
    (3 < sel.toNat → exec (.rdStatus sel) s = .next (faulted 0x0C s))

/-- Every field of the status word and of the configuration word at its bits, every other bit 0 (R212, R214), and the two
output levels (R38). -/
def Obligations.StatusWordsLayout : Prop :=
  (∀ s : State,
    (statusWord s).toNat =
      (slotBit s.active).toNat + 2 * s.concurrent.toNat + 2 ^ 3 * s.full0.toNat + 2 ^ 4 * s.full1.toNat +
        2 ^ 5 * s.wIn.toNat + 2 ^ 6 * s.rIn.toNat + 2 ^ 7 * s.md.toNat + 2 ^ 8 * s.specValid.toNat +
        2 ^ 9 * s.lastWValid.toNat + 2 ^ 10 * (slotBit s.lastW).toNat + 2 ^ 16 * s.err.toNat) ∧
  (∀ c : Config, 1 ≤ c.log2n → c.log2n ≤ 30 →
    (configWord c).toNat = c.log2n + 2 ^ 8 * (match c.byteOrder with | .le => 0 | .be => 1)) ∧
  ∀ s : State, irqMd s = s.md ∧ (irqErr s = true ↔ s.err ≠ 0)

/-! ## The handoff buffer over all states -/

/-- Every block meets the invariant in its reset state. -/
def Obligations.ResetMeetsTheInvariant : Prop :=
  ∀ c : Config, (State.initial c).Inv ∧ State.reset = State.initial exampleConfig

/-- Every step keeps the invariant (R120, R121 and what R117 to R119 and R128 say of the full bits), resets and faults
included. -/
def Obligations.StepKeepsTheInvariant : Prop :=
  ∀ s t : State, s.Inv → step s = .next t → t.Inv

/-- Nothing the outside world does between two steps breaks the invariant. -/
def Obligations.HostEventsKeepTheInvariant : Prop :=
  ∀ (e : HostEvent) (s : State), s.Inv → (applyEvent e s).Inv

/-- `ACTIVE` is constant while an agent is inside (R122): a step that changes it leaves nobody inside, moves it to the other
slot, and follows a publish that waited in, or was made to, the old write slot. -/
def Obligations.ActiveChangesOnlyAsTheLastAgentLeaves : Prop :=
  ∀ s t : State, s.Inv → s.resetIn = false → step s = .next t → t.active ≠ s.active →
    (s.wIn = true ∨ s.rIn = true) ∧ t.wIn = false ∧ t.rIn = false ∧ t.concurrent = 0 ∧ t.active = otherSlot s.active ∧
      fullOf t s.active = true ∧ fullOf t t.active = false

/-- No torn read (R124): while the consumer holds a read, no command of either port writes the slot it holds, and that slot
stays the read slot until the hold ends. -/
def Obligations.HeldSlotIsNeverWritten : Prop :=
  ∀ s t : State, s.Inv → s.rIn = true → s.resetIn = false → step s = .next t →
    slotOf t (readSlot s) = slotOf s (readSlot s) ∧ (t.rIn = true → readSlot t = readSlot s ∧ fullOf t (readSlot t) = true)

/-- Each published Window is granted at most once (R125): the only step that sets a full bit is a `P.STOP`, and the slot is
the write slot it publishes; and after a hold ends its slot's full bit is 0. -/
def Obligations.FullBitsAreSetOnlyByAPublish : Prop :=
  ∀ s t : State, s.Inv → s.resetIn = false → step s = .next t →
    (∀ x, fullOf s x = false → fullOf t x = true →
      x = s.active ∧ s.wIn = true ∧ s.fill = s.cfg.n ∧ t.wIn = false ∧ t.lastWValid = true ∧ t.lastW = x) ∧
    (s.rIn = true → t.rIn = false → fullOf t (readSlot s) = false)

/-- Latest Window (R126): when `C.START` grants a Window, it is the one published by the most recent `P.STOP`. -/
def Obligations.GrantedWindowIsTheLatest : Prop :=
  ∀ s t : State, s.Inv → s.rIn = false → exec .cStart s = .next t → t.rIn = true →
    s.lastWValid = true ∧ s.lastW = readSlot s ∧ s.md = false

/-- Wait-freedom (R127): with no read held, a `P.STOP` of a full Window flips, and the next `P.START` receives the other
slot and detects no Missed Deadline. -/
def Obligations.AbsentConsumerNeverStopsTheProducer : Prop :=
  ∀ s : State, s.Inv → s.rIn = false → s.wIn = true → s.md = false → s.fill = s.cfg.n →
    ∃ t u, exec .pStop s = .next t ∧ t.active = otherSlot s.active ∧ t.concurrent = 0 ∧ fullOf t (readSlot t) = true ∧
      exec .pStart t = .next u ∧ u.md = false ∧ u.wIn = true ∧ u.active = otherSlot s.active ∧
      slotOf u s.active = slotOf s s.active

/-- Who flips (R129): a Window published while a read is held is not flipped in by its `P.STOP`; the `C.END` that ends the
read flips it in, and the next `P.START` then detects no Missed Deadline. -/
def Obligations.DeferredFlipIsDoneByCEnd : Prop :=
  ∀ s : State, s.Inv → s.rIn = true → s.wIn = true → s.md = false → s.fill = s.cfg.n →
    ∃ t u v, exec .pStop s = .next t ∧ t.active = s.active ∧ pendingFlip t = true ∧
      exec .cEnd t = .next u ∧ u.active = otherSlot s.active ∧ readSlot u = s.active ∧ fullOf u (readSlot u) = true ∧
      exec .pStart u = .next v ∧ v.md = false

/-- A `P.START` detects the Missed Deadline exactly when a published Window still waits in the write slot, which in every
reachable state means that the consumer holds a read (R115, R130). -/
def Obligations.MissedDeadlineExactlyWhenTheFlipIsPending : Prop :=
  ∀ s t : State, s.Inv → s.md = false → s.wIn = false → exec .pStart s = .next t →
    (t.md = true ↔ fullOf s s.active = true) ∧ (t.md = true → s.rIn = true)

/-- A consumer that does not end its read causes the Missed Deadline (R129, R130): from a `P.STOP` of a full Window during a
hold, through any steps in which the hold goes on and no `P.START` has entered, the next `P.START` detects it, and both the
Window being read and the Window just published are kept. -/
def Obligations.LateConsumerCausesTheMissedDeadline : Prop :=
  ∀ (k : Nat) (s t u : State), s.Inv → s.rIn = true → s.wIn = true → s.md = false → s.fill = s.cfg.n →
    exec .pStop s = .next t →
    (∀ j u', j ≤ k → Sys2Proof.core.run j t = .next u' → u'.rIn = true ∧ u'.wIn = false ∧ u'.resetIn = false) →
    Sys2Proof.core.run k t = .next u →
    ∃ v, exec .pStart u = .next v ∧ v.md = true ∧ v.wIn = true ∧ irqMd v = true ∧ v.slot0 = s.slot0 ∧ v.slot1 = s.slot1 ∧
      v.active = s.active

/-- After a Missed Deadline (R128), at every step but a reset: `MD` and `W_IN` stay 1, no flip happens, the stranded Window
stays in its slot, every `P.START`, `P.PUSH` and `P.STOP` faults with `INGEST_HALTED`, and once the consumer holds no read it
is granted none again. -/
def Obligations.MissedDeadlineStrandsUntilReset : Prop :=
  (∀ s t : State, s.Inv → s.md = true → s.resetIn = false → step s = .next t →
    t.md = true ∧ t.wIn = true ∧ t.active = s.active ∧ slotOf t s.active = slotOf s s.active ∧
      (s.rIn = false → t.rIn = false)) ∧
  ∀ (s : State) (v : Word32), s.md = true →
    exec .pStart s = .next (faulted 0x08 s) ∧ exec (.pPush v) s = .next (faulted 0x08 s) ∧
      exec .pStop s = .next (faulted 0x08 s)

/-- What each agent can never write (R52, R234): a command the producer may not issue leaves both slots, `W_IN`, `FILL`,
`LAST_W` and `MD` alone; a command the consumer may not issue leaves `SPEC`, `SPEC_VALID`, `OUT` and `R_IN` alone. -/
def Obligations.EachPortWritesOnlyItsOwnState : Prop :=
  ∀ (i : Instr) (s t : State), exec i s = .next t →
    (i.acceptedOn .portP = false →
      t.slot0 = s.slot0 ∧ t.slot1 = s.slot1 ∧ t.wIn = s.wIn ∧ t.fill = s.fill ∧ t.lastWValid = s.lastWValid ∧
        t.lastW = s.lastW ∧ t.md = s.md) ∧
    (i.acceptedOn .portC = false →
      t.spec = s.spec ∧ t.specValid = s.specValid ∧ t.out = s.out ∧ t.rIn = s.rIn)

/-- What a Window holds (R90, R131): every step keeps every element of the slot being written and of a full slot with
imaginary part `+0.0`. -/
def Obligations.StepKeepsWindowsReal : Prop :=
  ∀ s t : State, s.Inv → s.RealWindows → step s = .next t → t.RealWindows

/-- The unspecified contents of `SLOT` and `SPEC` after reset cannot be observed (R252): of two states that differ at most
in them, one meeting the invariant, every run of any length gives two states that differ at most in them; responses, `OUT`,
every flag and register are equal. -/
def Obligations.UnspecifiedContentsAreUnobservable : Prop :=
  ∀ (k : Nat) (s t s' : State), s.Inv → SameButUnspecified s t → Sys2Proof.core.run k s = .next s' →
    ∃ t', Sys2Proof.core.run k t = .next t' ∧ SameButUnspecified s' t'

/-! ## Arithmetic -/

/-- `fadd` and `fsub` of finite values are the exact sum and difference rounded to nearest, ties to even; the sign of an
exact zero is `+0.0` but for `fadd(-0.0, -0.0)` and `fsub(-0.0, +0.0)` (R150). -/
def Obligations.SumsAreCorrectlyRounded : Prop :=
  (∀ a b : Word32, f32Finite a → f32Finite b →
    RoundsTo ((f32Value a : ℝ) + (f32Value b : ℝ)) (fadd a b) ∧ RoundsTo ((f32Value a : ℝ) - (f32Value b : ℝ)) (fsub a b) ∧
    (f32Value a + f32Value b = 0 → fadd a b = if a = 0x80000000 ∧ b = 0x80000000 then 0x80000000 else 0x00000000) ∧
    (f32Value a - f32Value b = 0 → fsub a b = if a = 0x80000000 ∧ b = 0x00000000 then 0x80000000 else 0x00000000))

/-- `fmul` of finite values is the exact product rounded to nearest, ties to even, its sign the exclusive-or of the signs,
a zero product included (R150). -/
def Obligations.ProductsAreCorrectlyRounded : Prop :=
  ∀ a b : Word32, f32Finite a → f32Finite b →
    RoundsTo ((f32Value a : ℝ) * (f32Value b : ℝ)) (fmul a b) ∧ (fmul a b).msb = (a.msb ^^ b.msb)

/-- `fdiv` of a finite value by a finite non-zero one is the exact quotient rounded to nearest, ties to even, its sign the
exclusive-or of the signs (R150). -/
def Obligations.QuotientsAreCorrectlyRounded : Prop :=
  ∀ a b : Word32, f32Finite a → f32Finite b → f32Value b ≠ 0 →
    RoundsTo ((f32Value a : ℝ) / (f32Value b : ℝ)) (fdiv a b) ∧ (fdiv a b).msb = (a.msb ^^ b.msb)

/-- The operations on NaNs, infinities and zeros, for both signs and in both operand orders. Stated by R150: a NaN operand
gives `0x7FC00000`, every NaN an operation gives is that one, `inf - inf` (a sum of opposite infinities included) and
`0 x inf` give it, and a non-zero finite value over zero is an infinity of the exclusive-or of the signs. The model's reading
of "as IEEE-754 defines" there (log 13): `0/0` and `inf/inf` are invalid too; infinities of one direction add up to that
infinity; an infinity plus or minus a finite value, and a finite value plus or minus an infinity, keep the infinity with its
sign in the sum; an infinity times anything but a zero or a NaN, and an infinity over a finite value, zero included, are
infinities, and a finite value over an infinity is a zero, each of the exclusive-or of the signs. -/
def Obligations.NanResultsAreCanonical : Prop :=
  (∀ a b : Word32, f32Nan a ∨ f32Nan b →
    fadd a b = 0x7FC00000 ∧ fsub a b = 0x7FC00000 ∧ fmul a b = 0x7FC00000 ∧ fdiv a b = 0x7FC00000) ∧
  (∀ a b r : Word32, r ∈ [fadd a b, fsub a b, fmul a b, fdiv a b] → f32Nan r → r = 0x7FC00000) ∧
  (∀ s : Bool, fadd (f32Inf s) (f32Inf (!s)) = 0x7FC00000 ∧ fsub (f32Inf s) (f32Inf s) = 0x7FC00000 ∧
    fadd (f32Inf s) (f32Inf s) = f32Inf s ∧ fsub (f32Inf s) (f32Inf (!s)) = f32Inf s) ∧
  (∀ s t : Bool, fmul (f32Zero s) (f32Inf t) = 0x7FC00000 ∧ fmul (f32Inf t) (f32Zero s) = 0x7FC00000 ∧
    fmul (f32Inf s) (f32Inf t) = f32Inf (s ^^ t) ∧
    fdiv (f32Zero s) (f32Zero t) = 0x7FC00000 ∧ fdiv (f32Inf s) (f32Inf t) = 0x7FC00000) ∧
  (∀ (a : Word32) (s : Bool), f32Finite a →
    fadd (f32Inf s) a = f32Inf s ∧ fadd a (f32Inf s) = f32Inf s ∧
    fsub (f32Inf s) a = f32Inf s ∧ fsub a (f32Inf s) = f32Inf (!s) ∧
    fdiv a (f32Inf s) = f32Zero (a.msb ^^ s) ∧ fdiv (f32Inf s) a = f32Inf (a.msb ^^ s)) ∧
  ∀ (a : Word32) (s : Bool), f32Finite a → f32Value a ≠ 0 →
    fdiv a (f32Zero s) = f32Inf (a.msb ^^ s) ∧
    fmul a (f32Inf s) = f32Inf (a.msb ^^ s) ∧ fmul (f32Inf s) a = f32Inf (a.msb ^^ s)

/-- The comparisons of every two operands that are no NaN, infinities included, are those of the values, `+0.0` equal to
`-0.0`, and every comparison with a NaN is false (R180). `fabs` of every operand that is no NaN is its pattern with bit 31
cleared, and its value is the magnitude; `fabs` of a NaN is a NaN (R180). `fIsNan` recognises the NaNs and nothing else. -/
def Obligations.ComparisonsFollowTheValues : Prop :=
  (∀ a b : Word32, ¬f32Nan a → ¬f32Nan b →
    (flt a b = true ↔ f32Extended a < f32Extended b) ∧ (fge a b = true ↔ f32Extended b ≤ f32Extended a) ∧
      (feq a b = true ↔ f32Extended a = f32Extended b)) ∧
  (∀ a b : Word32, f32Nan a ∨ f32Nan b → flt a b = false ∧ fge a b = false ∧ feq a b = false) ∧
  (∀ a : Word32, ¬f32Nan a → fabs a = (a &&& 0x7FFFFFFF)) ∧
  (∀ a : Word32, f32Finite a → f32Value (fabs a) = |f32Value a|) ∧
  (∀ a : Word32, f32Nan a → f32Nan (fabs a)) ∧
  ∀ a : Word32, fIsNan a = true ↔ f32Nan a

/-- The twiddle table is correctly rounded for every size (R152): entry `k` of the table for `N = 2^l` is the nearest
binary32, ties to even, of `cos(2 pi k / N)` and of `-sin(2 pi k / N)`, an exact zero being `+0.0`. -/
def Obligations.TwiddleTableIsCorrectlyRounded : Prop :=
  ∀ l k : Nat, k < 2 ^ l / 2 →
    let x : ℝ := Real.cos (2 * Real.pi * k / 2 ^ l)
    let y : ℝ := -Real.sin (2 * Real.pi * k / 2 ^ l)
    let e := (twiddleTable l).getD k cZero
    RoundsTo x e.re ∧ RoundsTo y e.im ∧ (x = 0 → e.re = 0x00000000) ∧ (y = 0 → e.im = 0x00000000)

/-- The tables that R152 prints, for N = 64, 8, 4 and 2, are those the model computes; and for every size the table has
`N/2` entries and is every second entry of the table for the size twice as large (R152), so that the tables for N = 32 and
N = 16 are fixed too. -/
def Obligations.PrintedTableIsTheTable : Prop :=
  (twiddleTable 6 = tw64 ∧ twiddleTable 5 = everySecond tw64 ∧ twiddleTable 4 = everySecond (everySecond tw64) ∧
    twiddleTable 3 = tw8 ∧
    twiddleTable 2 = [⟨0x3F800000, 0x00000000⟩, ⟨0x00000000, 0xBF800000⟩] ∧ twiddleTable 1 = [⟨0x3F800000, 0x00000000⟩]) ∧
  ∀ l : Nat, (twiddleTable l).length = 2 ^ l / 2 ∧
    ∀ k, k < 2 ^ l / 2 → (twiddleTable l).getD k cZero = (twiddleTable (l + 1)).getD (2 * k) cZero

/-! ## The transform -/

/-- `bitrev_L(i)` (R155): bit `b` is bit `L - 1 - b` of `i`; and the permutation of R156 puts element `bitrev_L(i)` at `i`. -/
def Obligations.BitReversalPermutes : Prop :=
  (∀ l i b, i < 2 ^ l → b < l → (bitrev l i < 2 ^ l ∧ (bitrev l i).testBit b = i.testBit (l - 1 - b))) ∧
  ∀ (l : Nat) (a : List Cplx) (i : Nat), a.length = 2 ^ l → i < 2 ^ l →
    (bitrevPermute l a).length = 2 ^ l ∧ elemAt (bitrevPermute l a) i = elemAt a (bitrev l i)

/-- The order of the butterflies inside one pass changes no result (R163): the pass done in place, in the order of R156,
gives at each place the butterfly of the elements before the pass. -/
def Obligations.PassEqualsItsSimultaneousForm : Prop :=
  ∀ (c : Config) (h : Nat) (a : List Cplx), 0 < h → 2 * h ∣ c.m → a.length = c.m →
    butterflyPass c h a = (List.range c.m).map (passElement c h a)

/-- `HalfFFT` (R156), in place with bit reversal, equals bit for bit the radix-2 decimation-in-time recursion that splits
into even and odd elements and combines with the roots `TW[j * (N/len)]`. -/
def Obligations.HalfTransformEqualsTheRecursion : Prop :=
  ∀ (c : Config) (a : List Cplx), 1 ≤ c.log2n → a.length = c.m →
    halfFft c a = recursiveDit c (c.log2n - 1) a

/-- Every step keeps every NaN of a valid spectrum canonical (R161), whatever the samples, the slots and the table are. -/
def Obligations.StepKeepsSpectrumNansCanonical : Prop :=
  ∀ s t : State, s.CanonicalSpectrum → step s = .next t → t.CanonicalSpectrum

/-- A second `C.FFT` in the same hold, whatever commands come between, writes the same bins again (R65, R160): the result is
a function of the held slot's elements and the configuration. -/
def Obligations.RepeatedTransformGivesTheSameBins : Prop :=
  ∀ (k : Nat) (s t s' t' : State), s.Inv → exec .cFft s = .next s' → s.rIn = true →
    (∀ j u, j ≤ k → Sys2Proof.core.run j s' = .next u → u.rIn = true ∧ u.resetIn = false) →
    Sys2Proof.core.run k s' = .next t → exec .cFft t = .next t' → t'.spec = s'.spec

/-! ## Compression -/

/-- The reference peak (R183): a bin in range that no bin exceeds in `L1`; every earlier bin whose `L1` is no NaN is strictly
smaller, so the first of equals is taken; a NaN at bin 0 stays the peak. -/
def Obligations.PeakIsTheFirstMaximum : Prop :=
  ∀ (bins : List Cplx) (m : Nat),
    let p := peakIndex bins m
    p ≤ m ∧ (∀ k, k ≤ m → flt (binL1 (binAt bins p)) (binL1 (binAt bins k)) = false) ∧
    (∀ k, k < p → fIsNan (binL1 (binAt bins k)) = false → flt (binL1 (binAt bins k)) (binL1 (binAt bins p)) = true) ∧
    (fIsNan (binL1 (binAt bins 0)) = true → p = 0) ∧ (fIsNan (binL1 (binAt bins p)) = true → p = 0)

/-- The squared magnitude is never negative and never `-0.0` (R182), and a NaN part makes it the canonical NaN. -/
def Obligations.SquaredMagnitudeIsNeverNegative : Prop :=
  ∀ b : Cplx, (binSq b).msb = false ∧ (fIsNan b.re = true ∨ fIsNan b.im = true → binSq b = 0x7FC00000)

/-- The packet's layout (R189): `12 E + 4` bytes with `E` at most `M + 1`; entry `e` at bytes `12 e` to `12 e + 11`, index,
real part, imaginary part; the terminator last. The bytes of a field (R57): `v[7:0]` first for `LE`, `v[31:24]` first for
`BE`. -/
def Obligations.PacketLayout : Prop :=
  (∀ v : Word32,
    (emit32 .le v).map BitVec.toNat =
      [v.toNat % 256, v.toNat / 2 ^ 8 % 256, v.toNat / 2 ^ 16 % 256, v.toNat / 2 ^ 24] ∧
    emit32 .be v = (emit32 .le v).reverse) ∧
  ∀ (c : Config) (bins : List Cplx),
    let ks := includedBins c bins
    (packet c bins).length = 12 * ks.length + 4 ∧ ks.length ≤ c.m + 1 ∧
    (∀ e, e < ks.length →
      ((packet c bins).drop (12 * e)).take 12 =
        emit32 c.byteOrder (BitVec.ofNat 32 (ks.getD e 0)) ++ emit32 c.byteOrder (binAt bins (ks.getD e 0)).re ++
          emit32 c.byteOrder (binAt bins (ks.getD e 0)).im) ∧
    (packet c bins).drop (12 * ks.length) = emit32 c.byteOrder 0x7FC00000

/-- A receiver recovers the packet (R193), whatever bytes follow it: the entries are the included bins in strictly ascending
order, each with its two parts bit for bit, and the next packet begins right after the terminator. -/
def Obligations.ReceiverRecoversThePacket : Prop :=
  ∀ (c : Config) (bins : List Cplx) (rest : List Byte), c.log2n ≤ 30 →
    parsePacket c.byteOrder (c.m + 2) (packet c bins ++ rest) =
      some ((includedBins c bins).map (fun k => ⟨BitVec.ofNat 32 k, binAt bins k⟩), rest) ∧
    (includedBins c bins).Pairwise (· < ·)

/-- The terminator is never an index and no part of an entry is a NaN (R192). -/
def Obligations.TerminatorAppearsOnlyAtTheEnd : Prop :=
  ∀ (c : Config) (bins : List Cplx) (k : Nat), c.log2n ≤ 30 → k ∈ includedBins c bins →
    k ≤ c.m ∧ k ≤ 2 ^ 29 ∧ BitVec.ofNat 32 k ≠ (0x7FC00000 : Word32) ∧
      fIsNan (binAt bins k).re = false ∧ fIsNan (binAt bins k).im = false

/-- Silence, a NaN peak and an infinite peak give the terminator alone (R184, R191): no entry when `psq` is zero or a NaN,
nor when it is `+inf` and the threshold is a value above zero. -/
def Obligations.DegeneratePeaksGiveEmptyPackets : Prop :=
  ∀ (c : Config) (bins : List Cplx),
    (peakSq bins c.m = 0x00000000 ∨ fIsNan (peakSq bins c.m) = true ∨
      (peakSq bins c.m = 0x7F800000 ∧ flt 0x00000000 c.thresholdSq = true)) →
    includedBins c bins = [] ∧ packet c bins = emit32 c.byteOrder 0x7FC00000
end

