-- ==== Sys2Proof/Laws/Float.lean ====
section
/-! SUPPORT. The parts of a binary32 pattern, said once: its sign and its magnitude, the pattern built from them, and the
value of a finite one as a multiple of 2^-149 (spec/41_fft.md R150). -/

namespace Sys2Proof.Machine

theorem msb_eq_fSign (a : Word32) : a.msb = fSign a := by
  rw [fSign, BitVec.msb_eq_decide]

theorem fMag_lt (a : Word32) : fMag a < 2 ^ 31 := Nat.mod_lt _ (by norm_num)

/-- A pattern is its sign and its magnitude. -/
theorem toNat_eq_sign_mag (a : Word32) : a.toNat = (if fSign a then 2 ^ 31 else 0) + fMag a := by
  unfold fSign fMag
  have := a.isLt
  by_cases h : 2 ^ 31 ≤ a.toNat
  · simp only [h, decide_true, if_true]; omega
  · simp only [h, decide_false, Bool.false_eq_true, if_false]; omega

theorem eq_of_sign_mag {a b : Word32} (hs : fSign a = fSign b) (hm : fMag a = fMag b) : a = b := by
  apply BitVec.eq_of_toNat_eq
  rw [toNat_eq_sign_mag a, toNat_eq_sign_mag b, hs, hm]

theorem fSign_fPack (sign : Bool) {p : Nat} (hp : p < 2 ^ 31) : fSign (fPack sign p) = sign := by
  cases sign <;> simp [fSign, fPack] <;> omega

theorem fMag_fPack (sign : Bool) {p : Nat} (hp : p < 2 ^ 31) : fMag (fPack sign p) = p := by
  cases sign <;> simp [fMag, fPack] <;> omega

/-- Rounding never passes infinity. -/
theorem roundMag_le (num den : Nat) : roundMag num den ≤ infMag := Nat.min_le_right _ _

@[simp] theorem fSign_fNeg (a : Word32) : fSign (fNeg a) = !fSign a := by
  have h : fNegZero.msb = true := by decide
  rw [← msb_eq_fSign, ← msb_eq_fSign, fNeg, BitVec.msb_xor, h]
  simp

@[simp] theorem fMag_fNeg (a : Word32) : fMag (fNeg a) = fMag a := by
  have h : ∀ x : Word32, fMag x = (x &&& 0x7FFFFFFF).toNat := by
    intro x
    rw [fMag, BitVec.toNat_and, show (0x7FFFFFFF : Word32).toNat = 2 ^ 31 - 1 by rfl, Nat.and_two_pow_sub_one_eq_mod]
  rw [h, h, fNeg, fNegZero]
  congr 1
  apply BitVec.eq_of_getLsbD_eq
  intro i hi
  simp only [BitVec.getLsbD_and, BitVec.getLsbD_xor]
  interval_cases i <;> simp

theorem magUnits_eq_zero {p : Nat} : magUnits p = 0 ↔ p = 0 := by
  unfold magUnits
  split
  · rfl
  · have : 0 < (2 : Nat) ^ (p / 2 ^ 23 - 1) := by positivity
    constructor
    · intro h; rcases Nat.mul_eq_zero.1 h with h | h <;> omega
    · omega

/-- The next magnitude pattern has a greater value: the fraction grows, or the exponent does. -/
theorem magUnits_lt_succ (p : Nat) : magUnits p < magUnits (p + 1) := by
  have hpos : 0 < (2 : Nat) ^ (p / 2 ^ 23 - 1) := by positivity
  unfold magUnits
  by_cases h1 : p + 1 < 2 ^ 23
  · rw [if_pos (by omega), if_pos h1]; omega
  · by_cases h2 : p < 2 ^ 23
    · obtain rfl : p = 2 ^ 23 - 1 := by omega
      decide
    · rw [if_neg h2, if_neg h1]
      by_cases h3 : (p + 1) % 2 ^ 23 = 0
      · have he : (p + 1) / 2 ^ 23 - 1 = (p / 2 ^ 23 - 1) + 1 := by omega
        rw [he, pow_succ (n := p / 2 ^ 23 - 1), h3]
        calc (2 ^ 23 + p % 2 ^ 23) * 2 ^ (p / 2 ^ 23 - 1)
            < 2 ^ 24 * 2 ^ (p / 2 ^ 23 - 1) := Nat.mul_lt_mul_of_pos_right (by omega) hpos
          _ = (2 ^ 23 + 0) * (2 ^ (p / 2 ^ 23 - 1) * 2) := by ring
      · have he : (p + 1) / 2 ^ 23 = p / 2 ^ 23 := by omega
        have hf : (p + 1) % 2 ^ 23 = p % 2 ^ 23 + 1 := by omega
        rw [he, hf]
        exact Nat.mul_lt_mul_of_pos_right (by omega) hpos

/-- The magnitude pattern grows with the magnitude of the value. -/
theorem magUnits_lt_iff {p q : Nat} : magUnits p < magUnits q ↔ p < q :=
  (strictMono_nat_of_lt_succ magUnits_lt_succ).lt_iff_lt

theorem f32Finite_iff (a : Word32) : f32Finite a ↔ fMag a < infMag := by
  unfold f32Finite fMag infMag
  have := a.isLt
  constructor <;> intro h <;> omega

/-- The magnitude of a pattern by the fields of IEEE-754 is its multiple of 2^-149. -/
theorem fields_eq_magUnits (a : Word32) :
    (if a.toNat / 2 ^ 23 % 256 = 0 then ((a.toNat % 2 ^ 23 : ℕ) : ℚ) / 2 ^ 149
      else (1 + ((a.toNat % 2 ^ 23 : ℕ) : ℚ) / 2 ^ 23) * 2 ^ (((a.toNat / 2 ^ 23 % 256 : ℕ) : ℤ) - 127)) =
      (magUnits (fMag a) : ℚ) / 2 ^ 149 := by
  have hlt := a.isLt
  unfold magUnits fMag
  have he : a.toNat % 2 ^ 31 / 2 ^ 23 = a.toNat / 2 ^ 23 % 256 := by omega
  have hf : a.toNat % 2 ^ 31 % 2 ^ 23 = a.toNat % 2 ^ 23 := by omega
  rw [he, hf]
  by_cases h0 : a.toNat / 2 ^ 23 % 256 = 0
  · rw [if_pos h0, if_pos (by omega)]; congr 2; omega
  · rw [if_neg h0, if_neg (by omega)]
    generalize a.toNat / 2 ^ 23 % 256 = e at *
    generalize a.toNat % 2 ^ 23 = f
    obtain ⟨e, rfl⟩ : ∃ e', e = e' + 1 := ⟨e - 1, by omega⟩
    push_cast
    rw [show ((e : ℤ) + 1 - 127) = (e : ℤ) - 126 by ring, zpow_sub₀ (by norm_num)]
    simp only [zpow_natCast]
    norm_num
    ring

/-- The value of a pattern is its signed multiple of 2^-149. -/
theorem f32Value_eq (a : Word32) : f32Value a = (fUnits a : ℚ) / 2 ^ 149 := by
  unfold f32Value fUnits fSign
  dsimp only
  rw [fields_eq_magUnits]
  by_cases h : 2 ^ 31 ≤ a.toNat
  · rw [if_pos h, if_pos (by simpa using h)]; push_cast; ring
  · rw [if_neg h, if_neg (by simpa using h)]; push_cast; ring

theorem f32Value_eq_zero {a : Word32} : f32Value a = 0 ↔ fMag a = 0 := by
  rw [f32Value_eq, ← magUnits_eq_zero]
  unfold fUnits
  split <;> simp

end Sys2Proof.Machine
end

