-- ==== Sys2Proof/Laws/State.lean ====
section
/-! SUPPORT. One lemma per field of State and named update that leaves it alone, and the lemmas of the fields an update
writes, so that no proof unfolds an update. -/

namespace Sys2Proof.Machine

-- Theorems are checked one after another: many threads at once take too much memory.
set_option Elab.async false

/-! ### respond -/

@[simp] theorem respond_active (r : Response) (s : State) : (respond r s).active = s.active := by unfold respond; split <;> rfl
@[simp] theorem respond_concurrent (r : Response) (s : State) : (respond r s).concurrent = s.concurrent := by unfold respond; split <;> rfl
@[simp] theorem respond_full0 (r : Response) (s : State) : (respond r s).full0 = s.full0 := by unfold respond; split <;> rfl
@[simp] theorem respond_full1 (r : Response) (s : State) : (respond r s).full1 = s.full1 := by unfold respond; split <;> rfl
@[simp] theorem respond_wIn (r : Response) (s : State) : (respond r s).wIn = s.wIn := by unfold respond; split <;> rfl
@[simp] theorem respond_rIn (r : Response) (s : State) : (respond r s).rIn = s.rIn := by unfold respond; split <;> rfl
@[simp] theorem respond_fill (r : Response) (s : State) : (respond r s).fill = s.fill := by unfold respond; split <;> rfl
@[simp] theorem respond_lastWValid (r : Response) (s : State) : (respond r s).lastWValid = s.lastWValid := by unfold respond; split <;> rfl
@[simp] theorem respond_lastW (r : Response) (s : State) : (respond r s).lastW = s.lastW := by unfold respond; split <;> rfl
@[simp] theorem respond_md (r : Response) (s : State) : (respond r s).md = s.md := by unfold respond; split <;> rfl
@[simp] theorem respond_specValid (r : Response) (s : State) : (respond r s).specValid = s.specValid := by unfold respond; split <;> rfl
@[simp] theorem respond_err (r : Response) (s : State) : (respond r s).err = s.err := by unfold respond; split <;> rfl
@[simp] theorem respond_slot0 (r : Response) (s : State) : (respond r s).slot0 = s.slot0 := by unfold respond; split <;> rfl
@[simp] theorem respond_slot1 (r : Response) (s : State) : (respond r s).slot1 = s.slot1 := by unfold respond; split <;> rfl
@[simp] theorem respond_spec (r : Response) (s : State) : (respond r s).spec = s.spec := by unfold respond; split <;> rfl
@[simp] theorem respond_out (r : Response) (s : State) : (respond r s).out = s.out := by unfold respond; split <;> rfl
@[simp] theorem respond_cfg (r : Response) (s : State) : (respond r s).cfg = s.cfg := by unfold respond; split <;> rfl
@[simp] theorem respond_pIn (r : Response) (s : State) : (respond r s).pIn = s.pIn := by unfold respond; split <;> rfl
@[simp] theorem respond_cIn (r : Response) (s : State) : (respond r s).cIn = s.cIn := by unfold respond; split <;> rfl
@[simp] theorem respond_cur (r : Response) (s : State) : (respond r s).cur = s.cur := by unfold respond; split <;> rfl
@[simp] theorem respond_grants (r : Response) (s : State) : (respond r s).grants = s.grants := by unfold respond; split <;> rfl
@[simp] theorem respond_turn (r : Response) (s : State) : (respond r s).turn = s.turn := by unfold respond; split <;> rfl
@[simp] theorem respond_resetIn (r : Response) (s : State) : (respond r s).resetIn = s.resetIn := by unfold respond; split <;> rfl

/-! ### latchErr -/

@[simp] theorem latchErr_active (f : FaultCode) (s : State) : (latchErr f s).active = s.active := by unfold latchErr; split <;> rfl
@[simp] theorem latchErr_concurrent (f : FaultCode) (s : State) : (latchErr f s).concurrent = s.concurrent := by unfold latchErr; split <;> rfl
@[simp] theorem latchErr_full0 (f : FaultCode) (s : State) : (latchErr f s).full0 = s.full0 := by unfold latchErr; split <;> rfl
@[simp] theorem latchErr_full1 (f : FaultCode) (s : State) : (latchErr f s).full1 = s.full1 := by unfold latchErr; split <;> rfl
@[simp] theorem latchErr_wIn (f : FaultCode) (s : State) : (latchErr f s).wIn = s.wIn := by unfold latchErr; split <;> rfl
@[simp] theorem latchErr_rIn (f : FaultCode) (s : State) : (latchErr f s).rIn = s.rIn := by unfold latchErr; split <;> rfl
@[simp] theorem latchErr_fill (f : FaultCode) (s : State) : (latchErr f s).fill = s.fill := by unfold latchErr; split <;> rfl
@[simp] theorem latchErr_lastWValid (f : FaultCode) (s : State) : (latchErr f s).lastWValid = s.lastWValid := by unfold latchErr; split <;> rfl
@[simp] theorem latchErr_lastW (f : FaultCode) (s : State) : (latchErr f s).lastW = s.lastW := by unfold latchErr; split <;> rfl
@[simp] theorem latchErr_md (f : FaultCode) (s : State) : (latchErr f s).md = s.md := by unfold latchErr; split <;> rfl
@[simp] theorem latchErr_specValid (f : FaultCode) (s : State) : (latchErr f s).specValid = s.specValid := by unfold latchErr; split <;> rfl
@[simp] theorem latchErr_slot0 (f : FaultCode) (s : State) : (latchErr f s).slot0 = s.slot0 := by unfold latchErr; split <;> rfl
@[simp] theorem latchErr_slot1 (f : FaultCode) (s : State) : (latchErr f s).slot1 = s.slot1 := by unfold latchErr; split <;> rfl
@[simp] theorem latchErr_spec (f : FaultCode) (s : State) : (latchErr f s).spec = s.spec := by unfold latchErr; split <;> rfl
@[simp] theorem latchErr_out (f : FaultCode) (s : State) : (latchErr f s).out = s.out := by unfold latchErr; split <;> rfl
@[simp] theorem latchErr_cfg (f : FaultCode) (s : State) : (latchErr f s).cfg = s.cfg := by unfold latchErr; split <;> rfl
@[simp] theorem latchErr_pIn (f : FaultCode) (s : State) : (latchErr f s).pIn = s.pIn := by unfold latchErr; split <;> rfl
@[simp] theorem latchErr_cIn (f : FaultCode) (s : State) : (latchErr f s).cIn = s.cIn := by unfold latchErr; split <;> rfl
@[simp] theorem latchErr_pResp (f : FaultCode) (s : State) : (latchErr f s).pResp = s.pResp := by unfold latchErr; split <;> rfl
@[simp] theorem latchErr_cResp (f : FaultCode) (s : State) : (latchErr f s).cResp = s.cResp := by unfold latchErr; split <;> rfl
@[simp] theorem latchErr_cur (f : FaultCode) (s : State) : (latchErr f s).cur = s.cur := by unfold latchErr; split <;> rfl
@[simp] theorem latchErr_grants (f : FaultCode) (s : State) : (latchErr f s).grants = s.grants := by unfold latchErr; split <;> rfl
@[simp] theorem latchErr_turn (f : FaultCode) (s : State) : (latchErr f s).turn = s.turn := by unfold latchErr; split <;> rfl
@[simp] theorem latchErr_resetIn (f : FaultCode) (s : State) : (latchErr f s).resetIn = s.resetIn := by unfold latchErr; split <;> rfl

/-! ### raiseFault -/

@[simp] theorem raiseFault_active (f : FaultCode) (s : State) : (raiseFault f s).active = s.active := by simp [raiseFault]
@[simp] theorem raiseFault_concurrent (f : FaultCode) (s : State) : (raiseFault f s).concurrent = s.concurrent := by simp [raiseFault]
@[simp] theorem raiseFault_full0 (f : FaultCode) (s : State) : (raiseFault f s).full0 = s.full0 := by simp [raiseFault]
@[simp] theorem raiseFault_full1 (f : FaultCode) (s : State) : (raiseFault f s).full1 = s.full1 := by simp [raiseFault]
@[simp] theorem raiseFault_wIn (f : FaultCode) (s : State) : (raiseFault f s).wIn = s.wIn := by simp [raiseFault]
@[simp] theorem raiseFault_rIn (f : FaultCode) (s : State) : (raiseFault f s).rIn = s.rIn := by simp [raiseFault]
@[simp] theorem raiseFault_fill (f : FaultCode) (s : State) : (raiseFault f s).fill = s.fill := by simp [raiseFault]
@[simp] theorem raiseFault_lastWValid (f : FaultCode) (s : State) : (raiseFault f s).lastWValid = s.lastWValid := by simp [raiseFault]
@[simp] theorem raiseFault_lastW (f : FaultCode) (s : State) : (raiseFault f s).lastW = s.lastW := by simp [raiseFault]
@[simp] theorem raiseFault_md (f : FaultCode) (s : State) : (raiseFault f s).md = s.md := by simp [raiseFault]
@[simp] theorem raiseFault_specValid (f : FaultCode) (s : State) : (raiseFault f s).specValid = s.specValid := by simp [raiseFault]
@[simp] theorem raiseFault_slot0 (f : FaultCode) (s : State) : (raiseFault f s).slot0 = s.slot0 := by simp [raiseFault]
@[simp] theorem raiseFault_slot1 (f : FaultCode) (s : State) : (raiseFault f s).slot1 = s.slot1 := by simp [raiseFault]
@[simp] theorem raiseFault_spec (f : FaultCode) (s : State) : (raiseFault f s).spec = s.spec := by simp [raiseFault]
@[simp] theorem raiseFault_out (f : FaultCode) (s : State) : (raiseFault f s).out = s.out := by simp [raiseFault]
@[simp] theorem raiseFault_cfg (f : FaultCode) (s : State) : (raiseFault f s).cfg = s.cfg := by simp [raiseFault]
@[simp] theorem raiseFault_pIn (f : FaultCode) (s : State) : (raiseFault f s).pIn = s.pIn := by simp [raiseFault]
@[simp] theorem raiseFault_cIn (f : FaultCode) (s : State) : (raiseFault f s).cIn = s.cIn := by simp [raiseFault]
@[simp] theorem raiseFault_cur (f : FaultCode) (s : State) : (raiseFault f s).cur = s.cur := by simp [raiseFault]
@[simp] theorem raiseFault_grants (f : FaultCode) (s : State) : (raiseFault f s).grants = s.grants := by simp [raiseFault]
@[simp] theorem raiseFault_turn (f : FaultCode) (s : State) : (raiseFault f s).turn = s.turn := by simp [raiseFault]
@[simp] theorem raiseFault_resetIn (f : FaultCode) (s : State) : (raiseFault f s).resetIn = s.resetIn := by simp [raiseFault]

/-! ### setSlot -/

@[simp] theorem setSlot_active (x : Slot) (w : List Cplx) (s : State) : (setSlot x w s).active = s.active := by cases x <;> rfl
@[simp] theorem setSlot_concurrent (x : Slot) (w : List Cplx) (s : State) : (setSlot x w s).concurrent = s.concurrent := by cases x <;> rfl
@[simp] theorem setSlot_full0 (x : Slot) (w : List Cplx) (s : State) : (setSlot x w s).full0 = s.full0 := by cases x <;> rfl
@[simp] theorem setSlot_full1 (x : Slot) (w : List Cplx) (s : State) : (setSlot x w s).full1 = s.full1 := by cases x <;> rfl
@[simp] theorem setSlot_wIn (x : Slot) (w : List Cplx) (s : State) : (setSlot x w s).wIn = s.wIn := by cases x <;> rfl
@[simp] theorem setSlot_rIn (x : Slot) (w : List Cplx) (s : State) : (setSlot x w s).rIn = s.rIn := by cases x <;> rfl
@[simp] theorem setSlot_fill (x : Slot) (w : List Cplx) (s : State) : (setSlot x w s).fill = s.fill := by cases x <;> rfl
@[simp] theorem setSlot_lastWValid (x : Slot) (w : List Cplx) (s : State) : (setSlot x w s).lastWValid = s.lastWValid := by cases x <;> rfl
@[simp] theorem setSlot_lastW (x : Slot) (w : List Cplx) (s : State) : (setSlot x w s).lastW = s.lastW := by cases x <;> rfl
@[simp] theorem setSlot_md (x : Slot) (w : List Cplx) (s : State) : (setSlot x w s).md = s.md := by cases x <;> rfl
@[simp] theorem setSlot_specValid (x : Slot) (w : List Cplx) (s : State) : (setSlot x w s).specValid = s.specValid := by cases x <;> rfl
@[simp] theorem setSlot_err (x : Slot) (w : List Cplx) (s : State) : (setSlot x w s).err = s.err := by cases x <;> rfl
@[simp] theorem setSlot_spec (x : Slot) (w : List Cplx) (s : State) : (setSlot x w s).spec = s.spec := by cases x <;> rfl
@[simp] theorem setSlot_out (x : Slot) (w : List Cplx) (s : State) : (setSlot x w s).out = s.out := by cases x <;> rfl
@[simp] theorem setSlot_cfg (x : Slot) (w : List Cplx) (s : State) : (setSlot x w s).cfg = s.cfg := by cases x <;> rfl
@[simp] theorem setSlot_pIn (x : Slot) (w : List Cplx) (s : State) : (setSlot x w s).pIn = s.pIn := by cases x <;> rfl
@[simp] theorem setSlot_cIn (x : Slot) (w : List Cplx) (s : State) : (setSlot x w s).cIn = s.cIn := by cases x <;> rfl
@[simp] theorem setSlot_pResp (x : Slot) (w : List Cplx) (s : State) : (setSlot x w s).pResp = s.pResp := by cases x <;> rfl
@[simp] theorem setSlot_cResp (x : Slot) (w : List Cplx) (s : State) : (setSlot x w s).cResp = s.cResp := by cases x <;> rfl
@[simp] theorem setSlot_cur (x : Slot) (w : List Cplx) (s : State) : (setSlot x w s).cur = s.cur := by cases x <;> rfl
@[simp] theorem setSlot_grants (x : Slot) (w : List Cplx) (s : State) : (setSlot x w s).grants = s.grants := by cases x <;> rfl
@[simp] theorem setSlot_turn (x : Slot) (w : List Cplx) (s : State) : (setSlot x w s).turn = s.turn := by cases x <;> rfl
@[simp] theorem setSlot_resetIn (x : Slot) (w : List Cplx) (s : State) : (setSlot x w s).resetIn = s.resetIn := by cases x <;> rfl

/-! ### clearSlot -/

@[simp] theorem clearSlot_active (x : Slot) (s : State) : (clearSlot x s).active = s.active := by simp [clearSlot]
@[simp] theorem clearSlot_concurrent (x : Slot) (s : State) : (clearSlot x s).concurrent = s.concurrent := by simp [clearSlot]
@[simp] theorem clearSlot_full0 (x : Slot) (s : State) : (clearSlot x s).full0 = s.full0 := by simp [clearSlot]
@[simp] theorem clearSlot_full1 (x : Slot) (s : State) : (clearSlot x s).full1 = s.full1 := by simp [clearSlot]
@[simp] theorem clearSlot_wIn (x : Slot) (s : State) : (clearSlot x s).wIn = s.wIn := by simp [clearSlot]
@[simp] theorem clearSlot_rIn (x : Slot) (s : State) : (clearSlot x s).rIn = s.rIn := by simp [clearSlot]
@[simp] theorem clearSlot_fill (x : Slot) (s : State) : (clearSlot x s).fill = s.fill := by simp [clearSlot]
@[simp] theorem clearSlot_lastWValid (x : Slot) (s : State) : (clearSlot x s).lastWValid = s.lastWValid := by simp [clearSlot]
@[simp] theorem clearSlot_lastW (x : Slot) (s : State) : (clearSlot x s).lastW = s.lastW := by simp [clearSlot]
@[simp] theorem clearSlot_md (x : Slot) (s : State) : (clearSlot x s).md = s.md := by simp [clearSlot]
@[simp] theorem clearSlot_specValid (x : Slot) (s : State) : (clearSlot x s).specValid = s.specValid := by simp [clearSlot]
@[simp] theorem clearSlot_err (x : Slot) (s : State) : (clearSlot x s).err = s.err := by simp [clearSlot]
@[simp] theorem clearSlot_spec (x : Slot) (s : State) : (clearSlot x s).spec = s.spec := by simp [clearSlot]
@[simp] theorem clearSlot_out (x : Slot) (s : State) : (clearSlot x s).out = s.out := by simp [clearSlot]
@[simp] theorem clearSlot_cfg (x : Slot) (s : State) : (clearSlot x s).cfg = s.cfg := by simp [clearSlot]
@[simp] theorem clearSlot_pIn (x : Slot) (s : State) : (clearSlot x s).pIn = s.pIn := by simp [clearSlot]
@[simp] theorem clearSlot_cIn (x : Slot) (s : State) : (clearSlot x s).cIn = s.cIn := by simp [clearSlot]
@[simp] theorem clearSlot_pResp (x : Slot) (s : State) : (clearSlot x s).pResp = s.pResp := by simp [clearSlot]
@[simp] theorem clearSlot_cResp (x : Slot) (s : State) : (clearSlot x s).cResp = s.cResp := by simp [clearSlot]
@[simp] theorem clearSlot_cur (x : Slot) (s : State) : (clearSlot x s).cur = s.cur := by simp [clearSlot]
@[simp] theorem clearSlot_grants (x : Slot) (s : State) : (clearSlot x s).grants = s.grants := by simp [clearSlot]
@[simp] theorem clearSlot_turn (x : Slot) (s : State) : (clearSlot x s).turn = s.turn := by simp [clearSlot]
@[simp] theorem clearSlot_resetIn (x : Slot) (s : State) : (clearSlot x s).resetIn = s.resetIn := by simp [clearSlot]

/-! ### slotWrite -/

@[simp] theorem slotWrite_active (x : Slot) (i : Nat) (c : Cplx) (s : State) : (slotWrite x i c s).active = s.active := by simp [slotWrite]
@[simp] theorem slotWrite_concurrent (x : Slot) (i : Nat) (c : Cplx) (s : State) : (slotWrite x i c s).concurrent = s.concurrent := by simp [slotWrite]
@[simp] theorem slotWrite_full0 (x : Slot) (i : Nat) (c : Cplx) (s : State) : (slotWrite x i c s).full0 = s.full0 := by simp [slotWrite]
@[simp] theorem slotWrite_full1 (x : Slot) (i : Nat) (c : Cplx) (s : State) : (slotWrite x i c s).full1 = s.full1 := by simp [slotWrite]
@[simp] theorem slotWrite_wIn (x : Slot) (i : Nat) (c : Cplx) (s : State) : (slotWrite x i c s).wIn = s.wIn := by simp [slotWrite]
@[simp] theorem slotWrite_rIn (x : Slot) (i : Nat) (c : Cplx) (s : State) : (slotWrite x i c s).rIn = s.rIn := by simp [slotWrite]
@[simp] theorem slotWrite_fill (x : Slot) (i : Nat) (c : Cplx) (s : State) : (slotWrite x i c s).fill = s.fill := by simp [slotWrite]
@[simp] theorem slotWrite_lastWValid (x : Slot) (i : Nat) (c : Cplx) (s : State) : (slotWrite x i c s).lastWValid = s.lastWValid := by simp [slotWrite]
@[simp] theorem slotWrite_lastW (x : Slot) (i : Nat) (c : Cplx) (s : State) : (slotWrite x i c s).lastW = s.lastW := by simp [slotWrite]
@[simp] theorem slotWrite_md (x : Slot) (i : Nat) (c : Cplx) (s : State) : (slotWrite x i c s).md = s.md := by simp [slotWrite]
@[simp] theorem slotWrite_specValid (x : Slot) (i : Nat) (c : Cplx) (s : State) : (slotWrite x i c s).specValid = s.specValid := by simp [slotWrite]
@[simp] theorem slotWrite_err (x : Slot) (i : Nat) (c : Cplx) (s : State) : (slotWrite x i c s).err = s.err := by simp [slotWrite]
@[simp] theorem slotWrite_spec (x : Slot) (i : Nat) (c : Cplx) (s : State) : (slotWrite x i c s).spec = s.spec := by simp [slotWrite]
@[simp] theorem slotWrite_out (x : Slot) (i : Nat) (c : Cplx) (s : State) : (slotWrite x i c s).out = s.out := by simp [slotWrite]
@[simp] theorem slotWrite_cfg (x : Slot) (i : Nat) (c : Cplx) (s : State) : (slotWrite x i c s).cfg = s.cfg := by simp [slotWrite]
@[simp] theorem slotWrite_pIn (x : Slot) (i : Nat) (c : Cplx) (s : State) : (slotWrite x i c s).pIn = s.pIn := by simp [slotWrite]
@[simp] theorem slotWrite_cIn (x : Slot) (i : Nat) (c : Cplx) (s : State) : (slotWrite x i c s).cIn = s.cIn := by simp [slotWrite]
@[simp] theorem slotWrite_pResp (x : Slot) (i : Nat) (c : Cplx) (s : State) : (slotWrite x i c s).pResp = s.pResp := by simp [slotWrite]
@[simp] theorem slotWrite_cResp (x : Slot) (i : Nat) (c : Cplx) (s : State) : (slotWrite x i c s).cResp = s.cResp := by simp [slotWrite]
@[simp] theorem slotWrite_cur (x : Slot) (i : Nat) (c : Cplx) (s : State) : (slotWrite x i c s).cur = s.cur := by simp [slotWrite]
@[simp] theorem slotWrite_grants (x : Slot) (i : Nat) (c : Cplx) (s : State) : (slotWrite x i c s).grants = s.grants := by simp [slotWrite]
@[simp] theorem slotWrite_turn (x : Slot) (i : Nat) (c : Cplx) (s : State) : (slotWrite x i c s).turn = s.turn := by simp [slotWrite]
@[simp] theorem slotWrite_resetIn (x : Slot) (i : Nat) (c : Cplx) (s : State) : (slotWrite x i c s).resetIn = s.resetIn := by simp [slotWrite]

/-! ### setFull -/

@[simp] theorem setFull_active (x : Slot) (b : Bool) (s : State) : (setFull x b s).active = s.active := by cases x <;> rfl
@[simp] theorem setFull_concurrent (x : Slot) (b : Bool) (s : State) : (setFull x b s).concurrent = s.concurrent := by cases x <;> rfl
@[simp] theorem setFull_wIn (x : Slot) (b : Bool) (s : State) : (setFull x b s).wIn = s.wIn := by cases x <;> rfl
@[simp] theorem setFull_rIn (x : Slot) (b : Bool) (s : State) : (setFull x b s).rIn = s.rIn := by cases x <;> rfl
@[simp] theorem setFull_fill (x : Slot) (b : Bool) (s : State) : (setFull x b s).fill = s.fill := by cases x <;> rfl
@[simp] theorem setFull_lastWValid (x : Slot) (b : Bool) (s : State) : (setFull x b s).lastWValid = s.lastWValid := by cases x <;> rfl
@[simp] theorem setFull_lastW (x : Slot) (b : Bool) (s : State) : (setFull x b s).lastW = s.lastW := by cases x <;> rfl
@[simp] theorem setFull_md (x : Slot) (b : Bool) (s : State) : (setFull x b s).md = s.md := by cases x <;> rfl
@[simp] theorem setFull_specValid (x : Slot) (b : Bool) (s : State) : (setFull x b s).specValid = s.specValid := by cases x <;> rfl
@[simp] theorem setFull_err (x : Slot) (b : Bool) (s : State) : (setFull x b s).err = s.err := by cases x <;> rfl
@[simp] theorem setFull_slot0 (x : Slot) (b : Bool) (s : State) : (setFull x b s).slot0 = s.slot0 := by cases x <;> rfl
@[simp] theorem setFull_slot1 (x : Slot) (b : Bool) (s : State) : (setFull x b s).slot1 = s.slot1 := by cases x <;> rfl
@[simp] theorem setFull_spec (x : Slot) (b : Bool) (s : State) : (setFull x b s).spec = s.spec := by cases x <;> rfl
@[simp] theorem setFull_out (x : Slot) (b : Bool) (s : State) : (setFull x b s).out = s.out := by cases x <;> rfl
@[simp] theorem setFull_cfg (x : Slot) (b : Bool) (s : State) : (setFull x b s).cfg = s.cfg := by cases x <;> rfl
@[simp] theorem setFull_pIn (x : Slot) (b : Bool) (s : State) : (setFull x b s).pIn = s.pIn := by cases x <;> rfl
@[simp] theorem setFull_cIn (x : Slot) (b : Bool) (s : State) : (setFull x b s).cIn = s.cIn := by cases x <;> rfl
@[simp] theorem setFull_pResp (x : Slot) (b : Bool) (s : State) : (setFull x b s).pResp = s.pResp := by cases x <;> rfl
@[simp] theorem setFull_cResp (x : Slot) (b : Bool) (s : State) : (setFull x b s).cResp = s.cResp := by cases x <;> rfl
@[simp] theorem setFull_cur (x : Slot) (b : Bool) (s : State) : (setFull x b s).cur = s.cur := by cases x <;> rfl
@[simp] theorem setFull_grants (x : Slot) (b : Bool) (s : State) : (setFull x b s).grants = s.grants := by cases x <;> rfl
@[simp] theorem setFull_turn (x : Slot) (b : Bool) (s : State) : (setFull x b s).turn = s.turn := by cases x <;> rfl
@[simp] theorem setFull_resetIn (x : Slot) (b : Bool) (s : State) : (setFull x b s).resetIn = s.resetIn := by cases x <;> rfl

/-! ### enter -/

@[simp] theorem enter_active (s : State) : (enter s).active = s.active := rfl
@[simp] theorem enter_full0 (s : State) : (enter s).full0 = s.full0 := rfl
@[simp] theorem enter_full1 (s : State) : (enter s).full1 = s.full1 := rfl
@[simp] theorem enter_wIn (s : State) : (enter s).wIn = s.wIn := rfl
@[simp] theorem enter_rIn (s : State) : (enter s).rIn = s.rIn := rfl
@[simp] theorem enter_fill (s : State) : (enter s).fill = s.fill := rfl
@[simp] theorem enter_lastWValid (s : State) : (enter s).lastWValid = s.lastWValid := rfl
@[simp] theorem enter_lastW (s : State) : (enter s).lastW = s.lastW := rfl
@[simp] theorem enter_md (s : State) : (enter s).md = s.md := rfl
@[simp] theorem enter_specValid (s : State) : (enter s).specValid = s.specValid := rfl
@[simp] theorem enter_err (s : State) : (enter s).err = s.err := rfl
@[simp] theorem enter_slot0 (s : State) : (enter s).slot0 = s.slot0 := rfl
@[simp] theorem enter_slot1 (s : State) : (enter s).slot1 = s.slot1 := rfl
@[simp] theorem enter_spec (s : State) : (enter s).spec = s.spec := rfl
@[simp] theorem enter_out (s : State) : (enter s).out = s.out := rfl
@[simp] theorem enter_cfg (s : State) : (enter s).cfg = s.cfg := rfl
@[simp] theorem enter_pIn (s : State) : (enter s).pIn = s.pIn := rfl
@[simp] theorem enter_cIn (s : State) : (enter s).cIn = s.cIn := rfl
@[simp] theorem enter_pResp (s : State) : (enter s).pResp = s.pResp := rfl
@[simp] theorem enter_cResp (s : State) : (enter s).cResp = s.cResp := rfl
@[simp] theorem enter_cur (s : State) : (enter s).cur = s.cur := rfl
@[simp] theorem enter_grants (s : State) : (enter s).grants = s.grants := rfl
@[simp] theorem enter_turn (s : State) : (enter s).turn = s.turn := rfl
@[simp] theorem enter_resetIn (s : State) : (enter s).resetIn = s.resetIn := rfl

/-! ### flipRoles -/

@[simp] theorem flipRoles_concurrent (s : State) : (flipRoles s).concurrent = s.concurrent := by simp [flipRoles]
@[simp] theorem flipRoles_wIn (s : State) : (flipRoles s).wIn = s.wIn := by simp [flipRoles]
@[simp] theorem flipRoles_rIn (s : State) : (flipRoles s).rIn = s.rIn := by simp [flipRoles]
@[simp] theorem flipRoles_fill (s : State) : (flipRoles s).fill = s.fill := by simp [flipRoles]
@[simp] theorem flipRoles_lastWValid (s : State) : (flipRoles s).lastWValid = s.lastWValid := by simp [flipRoles]
@[simp] theorem flipRoles_lastW (s : State) : (flipRoles s).lastW = s.lastW := by simp [flipRoles]
@[simp] theorem flipRoles_md (s : State) : (flipRoles s).md = s.md := by simp [flipRoles]
@[simp] theorem flipRoles_specValid (s : State) : (flipRoles s).specValid = s.specValid := by simp [flipRoles]
@[simp] theorem flipRoles_err (s : State) : (flipRoles s).err = s.err := by simp [flipRoles]
@[simp] theorem flipRoles_slot0 (s : State) : (flipRoles s).slot0 = s.slot0 := by simp [flipRoles]
@[simp] theorem flipRoles_slot1 (s : State) : (flipRoles s).slot1 = s.slot1 := by simp [flipRoles]
@[simp] theorem flipRoles_spec (s : State) : (flipRoles s).spec = s.spec := by simp [flipRoles]
@[simp] theorem flipRoles_out (s : State) : (flipRoles s).out = s.out := by simp [flipRoles]
@[simp] theorem flipRoles_cfg (s : State) : (flipRoles s).cfg = s.cfg := by simp [flipRoles]
@[simp] theorem flipRoles_pIn (s : State) : (flipRoles s).pIn = s.pIn := by simp [flipRoles]
@[simp] theorem flipRoles_cIn (s : State) : (flipRoles s).cIn = s.cIn := by simp [flipRoles]
@[simp] theorem flipRoles_pResp (s : State) : (flipRoles s).pResp = s.pResp := by simp [flipRoles]
@[simp] theorem flipRoles_cResp (s : State) : (flipRoles s).cResp = s.cResp := by simp [flipRoles]
@[simp] theorem flipRoles_cur (s : State) : (flipRoles s).cur = s.cur := by simp [flipRoles]
@[simp] theorem flipRoles_grants (s : State) : (flipRoles s).grants = s.grants := by simp [flipRoles]
@[simp] theorem flipRoles_turn (s : State) : (flipRoles s).turn = s.turn := by simp [flipRoles]
@[simp] theorem flipRoles_resetIn (s : State) : (flipRoles s).resetIn = s.resetIn := by simp [flipRoles]

/-! ### exitSection -/

@[simp] theorem exitSection_wIn (s : State) : ((exitSection s).1).wIn = s.wIn := by unfold exitSection; dsimp only; split <;> simp
@[simp] theorem exitSection_rIn (s : State) : ((exitSection s).1).rIn = s.rIn := by unfold exitSection; dsimp only; split <;> simp
@[simp] theorem exitSection_fill (s : State) : ((exitSection s).1).fill = s.fill := by unfold exitSection; dsimp only; split <;> simp
@[simp] theorem exitSection_lastWValid (s : State) : ((exitSection s).1).lastWValid = s.lastWValid := by unfold exitSection; dsimp only; split <;> simp
@[simp] theorem exitSection_lastW (s : State) : ((exitSection s).1).lastW = s.lastW := by unfold exitSection; dsimp only; split <;> simp
@[simp] theorem exitSection_md (s : State) : ((exitSection s).1).md = s.md := by unfold exitSection; dsimp only; split <;> simp
@[simp] theorem exitSection_specValid (s : State) : ((exitSection s).1).specValid = s.specValid := by unfold exitSection; dsimp only; split <;> simp
@[simp] theorem exitSection_err (s : State) : ((exitSection s).1).err = s.err := by unfold exitSection; dsimp only; split <;> simp
@[simp] theorem exitSection_slot0 (s : State) : ((exitSection s).1).slot0 = s.slot0 := by unfold exitSection; dsimp only; split <;> simp
@[simp] theorem exitSection_slot1 (s : State) : ((exitSection s).1).slot1 = s.slot1 := by unfold exitSection; dsimp only; split <;> simp
@[simp] theorem exitSection_spec (s : State) : ((exitSection s).1).spec = s.spec := by unfold exitSection; dsimp only; split <;> simp
@[simp] theorem exitSection_out (s : State) : ((exitSection s).1).out = s.out := by unfold exitSection; dsimp only; split <;> simp
@[simp] theorem exitSection_cfg (s : State) : ((exitSection s).1).cfg = s.cfg := by unfold exitSection; dsimp only; split <;> simp
@[simp] theorem exitSection_pIn (s : State) : ((exitSection s).1).pIn = s.pIn := by unfold exitSection; dsimp only; split <;> simp
@[simp] theorem exitSection_cIn (s : State) : ((exitSection s).1).cIn = s.cIn := by unfold exitSection; dsimp only; split <;> simp
@[simp] theorem exitSection_pResp (s : State) : ((exitSection s).1).pResp = s.pResp := by unfold exitSection; dsimp only; split <;> simp
@[simp] theorem exitSection_cResp (s : State) : ((exitSection s).1).cResp = s.cResp := by unfold exitSection; dsimp only; split <;> simp
@[simp] theorem exitSection_cur (s : State) : ((exitSection s).1).cur = s.cur := by unfold exitSection; dsimp only; split <;> simp
@[simp] theorem exitSection_grants (s : State) : ((exitSection s).1).grants = s.grants := by unfold exitSection; dsimp only; split <;> simp
@[simp] theorem exitSection_turn (s : State) : ((exitSection s).1).turn = s.turn := by unfold exitSection; dsimp only; split <;> simp
@[simp] theorem exitSection_resetIn (s : State) : ((exitSection s).1).resetIn = s.resetIn := by unfold exitSection; dsimp only; split <;> simp

/-! ### writeSpectrum -/

@[simp] theorem writeSpectrum_active (bins : List Cplx) (s : State) : (writeSpectrum bins s).active = s.active := rfl
@[simp] theorem writeSpectrum_concurrent (bins : List Cplx) (s : State) : (writeSpectrum bins s).concurrent = s.concurrent := rfl
@[simp] theorem writeSpectrum_full0 (bins : List Cplx) (s : State) : (writeSpectrum bins s).full0 = s.full0 := rfl
@[simp] theorem writeSpectrum_full1 (bins : List Cplx) (s : State) : (writeSpectrum bins s).full1 = s.full1 := rfl
@[simp] theorem writeSpectrum_wIn (bins : List Cplx) (s : State) : (writeSpectrum bins s).wIn = s.wIn := rfl
@[simp] theorem writeSpectrum_rIn (bins : List Cplx) (s : State) : (writeSpectrum bins s).rIn = s.rIn := rfl
@[simp] theorem writeSpectrum_fill (bins : List Cplx) (s : State) : (writeSpectrum bins s).fill = s.fill := rfl
@[simp] theorem writeSpectrum_lastWValid (bins : List Cplx) (s : State) : (writeSpectrum bins s).lastWValid = s.lastWValid := rfl
@[simp] theorem writeSpectrum_lastW (bins : List Cplx) (s : State) : (writeSpectrum bins s).lastW = s.lastW := rfl
@[simp] theorem writeSpectrum_md (bins : List Cplx) (s : State) : (writeSpectrum bins s).md = s.md := rfl
@[simp] theorem writeSpectrum_specValid (bins : List Cplx) (s : State) : (writeSpectrum bins s).specValid = s.specValid := rfl
@[simp] theorem writeSpectrum_err (bins : List Cplx) (s : State) : (writeSpectrum bins s).err = s.err := rfl
@[simp] theorem writeSpectrum_slot0 (bins : List Cplx) (s : State) : (writeSpectrum bins s).slot0 = s.slot0 := rfl
@[simp] theorem writeSpectrum_slot1 (bins : List Cplx) (s : State) : (writeSpectrum bins s).slot1 = s.slot1 := rfl
@[simp] theorem writeSpectrum_out (bins : List Cplx) (s : State) : (writeSpectrum bins s).out = s.out := rfl
@[simp] theorem writeSpectrum_cfg (bins : List Cplx) (s : State) : (writeSpectrum bins s).cfg = s.cfg := rfl
@[simp] theorem writeSpectrum_pIn (bins : List Cplx) (s : State) : (writeSpectrum bins s).pIn = s.pIn := rfl
@[simp] theorem writeSpectrum_cIn (bins : List Cplx) (s : State) : (writeSpectrum bins s).cIn = s.cIn := rfl
@[simp] theorem writeSpectrum_pResp (bins : List Cplx) (s : State) : (writeSpectrum bins s).pResp = s.pResp := rfl
@[simp] theorem writeSpectrum_cResp (bins : List Cplx) (s : State) : (writeSpectrum bins s).cResp = s.cResp := rfl
@[simp] theorem writeSpectrum_cur (bins : List Cplx) (s : State) : (writeSpectrum bins s).cur = s.cur := rfl
@[simp] theorem writeSpectrum_grants (bins : List Cplx) (s : State) : (writeSpectrum bins s).grants = s.grants := rfl
@[simp] theorem writeSpectrum_turn (bins : List Cplx) (s : State) : (writeSpectrum bins s).turn = s.turn := rfl
@[simp] theorem writeSpectrum_resetIn (bins : List Cplx) (s : State) : (writeSpectrum bins s).resetIn = s.resetIn := rfl

/-! ### appendOut -/

@[simp] theorem appendOut_active (bytes : List Byte) (s : State) : (appendOut bytes s).active = s.active := rfl
@[simp] theorem appendOut_concurrent (bytes : List Byte) (s : State) : (appendOut bytes s).concurrent = s.concurrent := rfl
@[simp] theorem appendOut_full0 (bytes : List Byte) (s : State) : (appendOut bytes s).full0 = s.full0 := rfl
@[simp] theorem appendOut_full1 (bytes : List Byte) (s : State) : (appendOut bytes s).full1 = s.full1 := rfl
@[simp] theorem appendOut_wIn (bytes : List Byte) (s : State) : (appendOut bytes s).wIn = s.wIn := rfl
@[simp] theorem appendOut_rIn (bytes : List Byte) (s : State) : (appendOut bytes s).rIn = s.rIn := rfl
@[simp] theorem appendOut_fill (bytes : List Byte) (s : State) : (appendOut bytes s).fill = s.fill := rfl
@[simp] theorem appendOut_lastWValid (bytes : List Byte) (s : State) : (appendOut bytes s).lastWValid = s.lastWValid := rfl
@[simp] theorem appendOut_lastW (bytes : List Byte) (s : State) : (appendOut bytes s).lastW = s.lastW := rfl
@[simp] theorem appendOut_md (bytes : List Byte) (s : State) : (appendOut bytes s).md = s.md := rfl
@[simp] theorem appendOut_specValid (bytes : List Byte) (s : State) : (appendOut bytes s).specValid = s.specValid := rfl
@[simp] theorem appendOut_err (bytes : List Byte) (s : State) : (appendOut bytes s).err = s.err := rfl
@[simp] theorem appendOut_slot0 (bytes : List Byte) (s : State) : (appendOut bytes s).slot0 = s.slot0 := rfl
@[simp] theorem appendOut_slot1 (bytes : List Byte) (s : State) : (appendOut bytes s).slot1 = s.slot1 := rfl
@[simp] theorem appendOut_spec (bytes : List Byte) (s : State) : (appendOut bytes s).spec = s.spec := rfl
@[simp] theorem appendOut_cfg (bytes : List Byte) (s : State) : (appendOut bytes s).cfg = s.cfg := rfl
@[simp] theorem appendOut_pIn (bytes : List Byte) (s : State) : (appendOut bytes s).pIn = s.pIn := rfl
@[simp] theorem appendOut_cIn (bytes : List Byte) (s : State) : (appendOut bytes s).cIn = s.cIn := rfl
@[simp] theorem appendOut_pResp (bytes : List Byte) (s : State) : (appendOut bytes s).pResp = s.pResp := rfl
@[simp] theorem appendOut_cResp (bytes : List Byte) (s : State) : (appendOut bytes s).cResp = s.cResp := rfl
@[simp] theorem appendOut_cur (bytes : List Byte) (s : State) : (appendOut bytes s).cur = s.cur := rfl
@[simp] theorem appendOut_grants (bytes : List Byte) (s : State) : (appendOut bytes s).grants = s.grants := rfl
@[simp] theorem appendOut_turn (bytes : List Byte) (s : State) : (appendOut bytes s).turn = s.turn := rfl
@[simp] theorem appendOut_resetIn (bytes : List Byte) (s : State) : (appendOut bytes s).resetIn = s.resetIn := rfl

/-! ### spendChoice -/

@[simp] theorem spendChoice_active (s : State) : (spendChoice s).active = s.active := by unfold spendChoice; split <;> rfl
@[simp] theorem spendChoice_concurrent (s : State) : (spendChoice s).concurrent = s.concurrent := by unfold spendChoice; split <;> rfl
@[simp] theorem spendChoice_full0 (s : State) : (spendChoice s).full0 = s.full0 := by unfold spendChoice; split <;> rfl
@[simp] theorem spendChoice_full1 (s : State) : (spendChoice s).full1 = s.full1 := by unfold spendChoice; split <;> rfl
@[simp] theorem spendChoice_wIn (s : State) : (spendChoice s).wIn = s.wIn := by unfold spendChoice; split <;> rfl
@[simp] theorem spendChoice_rIn (s : State) : (spendChoice s).rIn = s.rIn := by unfold spendChoice; split <;> rfl
@[simp] theorem spendChoice_fill (s : State) : (spendChoice s).fill = s.fill := by unfold spendChoice; split <;> rfl
@[simp] theorem spendChoice_lastWValid (s : State) : (spendChoice s).lastWValid = s.lastWValid := by unfold spendChoice; split <;> rfl
@[simp] theorem spendChoice_lastW (s : State) : (spendChoice s).lastW = s.lastW := by unfold spendChoice; split <;> rfl
@[simp] theorem spendChoice_md (s : State) : (spendChoice s).md = s.md := by unfold spendChoice; split <;> rfl
@[simp] theorem spendChoice_specValid (s : State) : (spendChoice s).specValid = s.specValid := by unfold spendChoice; split <;> rfl
@[simp] theorem spendChoice_err (s : State) : (spendChoice s).err = s.err := by unfold spendChoice; split <;> rfl
@[simp] theorem spendChoice_slot0 (s : State) : (spendChoice s).slot0 = s.slot0 := by unfold spendChoice; split <;> rfl
@[simp] theorem spendChoice_slot1 (s : State) : (spendChoice s).slot1 = s.slot1 := by unfold spendChoice; split <;> rfl
@[simp] theorem spendChoice_spec (s : State) : (spendChoice s).spec = s.spec := by unfold spendChoice; split <;> rfl
@[simp] theorem spendChoice_out (s : State) : (spendChoice s).out = s.out := by unfold spendChoice; split <;> rfl
@[simp] theorem spendChoice_cfg (s : State) : (spendChoice s).cfg = s.cfg := by unfold spendChoice; split <;> rfl
@[simp] theorem spendChoice_pIn (s : State) : (spendChoice s).pIn = s.pIn := by unfold spendChoice; split <;> rfl
@[simp] theorem spendChoice_cIn (s : State) : (spendChoice s).cIn = s.cIn := by unfold spendChoice; split <;> rfl
@[simp] theorem spendChoice_pResp (s : State) : (spendChoice s).pResp = s.pResp := by unfold spendChoice; split <;> rfl
@[simp] theorem spendChoice_cResp (s : State) : (spendChoice s).cResp = s.cResp := by unfold spendChoice; split <;> rfl
@[simp] theorem spendChoice_cur (s : State) : (spendChoice s).cur = s.cur := by unfold spendChoice; split <;> rfl
@[simp] theorem spendChoice_resetIn (s : State) : (spendChoice s).resetIn = s.resetIn := by unfold spendChoice; split <;> rfl

/-! ### The fields an update writes -/

@[simp] theorem otherSlot_otherSlot (x : Slot) : otherSlot (otherSlot x) = x := by cases x <;> rfl

@[simp] theorem otherSlot_ne (x : Slot) : otherSlot x ≠ x := by cases x <;> decide

@[simp] theorem ne_otherSlot (x : Slot) : x ≠ otherSlot x := by cases x <;> decide

theorem eq_otherSlot_of_ne {x y : Slot} (h : x ≠ y) : x = otherSlot y := by cases x <;> cases y <;> simp_all [otherSlot]

@[simp] theorem slotOf_setSlot (x y : Slot) (w : List Cplx) (s : State) :
    slotOf (setSlot x w s) y = if y = x then w else slotOf s y := by cases x <;> cases y <;> simp [slotOf, setSlot]

@[simp] theorem fullOf_setFull (x y : Slot) (b : Bool) (s : State) :
    fullOf (setFull x b s) y = if y = x then b else fullOf s y := by cases x <;> cases y <;> simp [fullOf, setFull]

@[simp] theorem slotOf_clearSlot (x y : Slot) (s : State) :
    slotOf (clearSlot x s) y = if y = x then List.replicate s.cfg.n cZero else slotOf s y := by simp [clearSlot]

@[simp] theorem slotOf_slotWrite (x y : Slot) (i : Nat) (c : Cplx) (s : State) :
    slotOf (slotWrite x i c s) y = if y = x then (slotOf s x).set i c else slotOf s y := by simp [slotWrite]

@[simp] theorem slotOf_respond (r : Response) (s : State) (x : Slot) : slotOf (respond r s) x = slotOf s x := by
  cases x <;> simp [slotOf]

@[simp] theorem fullOf_respond (r : Response) (s : State) (x : Slot) : fullOf (respond r s) x = fullOf s x := by
  cases x <;> simp [fullOf]

@[simp] theorem readSlot_respond (r : Response) (s : State) : readSlot (respond r s) = readSlot s := by simp [readSlot]

@[simp] theorem sameSlot_respond (r : Response) (s : State) : sameSlot (respond r s) = sameSlot s := by simp [sameSlot]

@[simp] theorem slotOf_raiseFault (f : FaultCode) (s : State) (x : Slot) : slotOf (raiseFault f s) x = slotOf s x := by
  cases x <;> simp [slotOf]

@[simp] theorem fullOf_raiseFault (f : FaultCode) (s : State) (x : Slot) : fullOf (raiseFault f s) x = fullOf s x := by
  cases x <;> simp [fullOf]

@[simp] theorem readSlot_raiseFault (f : FaultCode) (s : State) : readSlot (raiseFault f s) = readSlot s := by simp [readSlot]

@[simp] theorem sameSlot_raiseFault (f : FaultCode) (s : State) : sameSlot (raiseFault f s) = sameSlot s := by simp [sameSlot]

@[simp] theorem latchErr_err (f : FaultCode) (s : State) :
    (latchErr f s).err = if s.err = 0 then f.toByte else s.err := by unfold latchErr; split <;> simp_all

@[simp] theorem raiseFault_err (f : FaultCode) (s : State) :
    (raiseFault f s).err = if s.err = 0 then f.toByte else s.err := by simp [raiseFault]

@[simp] theorem respond_responsesOn (r : Response) (s : State) (p : Port) :
    responsesOn (respond r s) p = if p = s.cur then responsesOn s p ++ [responseWord r] else responsesOn s p := by
  unfold respond; split <;> cases p <;> simp_all [responsesOn]

@[simp] theorem respond_pendingOn (r : Response) (s : State) (p : Port) : pendingOn (respond r s) p = pendingOn s p := by
  cases p <;> simp [pendingOn]

@[simp] theorem raiseFault_responsesOn (f : FaultCode) (s : State) (p : Port) :
    responsesOn (raiseFault f s) p =
      if p = s.cur then responsesOn s p ++ [responseWord { errcode := f.toByte }] else responsesOn s p := by
  unfold raiseFault; rw [respond_responsesOn]; cases p <;> simp [responsesOn]

@[simp] theorem raiseFault_pendingOn (f : FaultCode) (s : State) (p : Port) : pendingOn (raiseFault f s) p = pendingOn s p := by
  cases p <;> simp [pendingOn]

@[simp] theorem enter_concurrent (s : State) : (enter s).concurrent = s.concurrent + 1 := rfl

@[simp] theorem fullOf_enter (s : State) (x : Slot) : fullOf (enter s) x = fullOf s x := by cases x <;> rfl

@[simp] theorem slotOf_enter (s : State) (x : Slot) : slotOf (enter s) x = slotOf s x := by cases x <;> rfl

@[simp] theorem flipRoles_active (s : State) : (flipRoles s).active = otherSlot s.active := rfl

@[simp] theorem fullOf_flipRoles (s : State) (x : Slot) :
    fullOf (flipRoles s) x = if x = otherSlot s.active then false else fullOf s x := by
  cases x <;> cases h : s.active <;> simp [flipRoles, fullOf, setFull, otherSlot, h]

@[simp] theorem appendOut_out (bytes : List Byte) (s : State) : (appendOut bytes s).out = s.out ++ bytes := rfl

@[simp] theorem writeSpectrum_spec (bins : List Cplx) (s : State) : (writeSpectrum bins s).spec = bins := rfl

/-! ### What every update keeps, said once -/

/-- A fault's state is the old one but for `ERR` and the response (R222). -/
theorem raiseFault_eq (f : FaultCode) (s : State) :
    raiseFault f s = respond { errcode := f.toByte } { s with err := if s.err = 0 then f.toByte else s.err } := by
  unfold raiseFault latchErr; split <;> simp_all

end Sys2Proof.Machine
end

