-- ==== Sys2Proof/Laws/Ops.lean ====
section
/-! SUPPORT. What each shared operation can do, said once: leaving a critical section, the serial order of the ports, and
the answer of a command. -/

namespace Sys2Proof.Machine

/-- Leaving a critical section (R112): the last agent out with a publish pending flips, and nothing else does. -/
theorem exitSection_cases (s : State) :
    (s.concurrent = 1 ∧ fullOf s s.active = true ∧
      exitSection s = (flipRoles { s with concurrent := s.concurrent - 1 }, true)) ∨
    ((s.concurrent ≠ 1 ∨ fullOf s s.active = false) ∧
      exitSection s = ({ s with concurrent := s.concurrent - 1 }, false)) := by
  have hc : s.concurrent - 1 = 0 ↔ s.concurrent = 1 := by generalize s.concurrent = c; revert c; decide
  have hf : ∀ x, fullOf { s with concurrent := s.concurrent - 1 } x = fullOf s x := by intro x; cases x <;> rfl
  unfold exitSection flipDue
  simp only [hf]
  by_cases h1 : s.concurrent = 1 <;> cases h2 : fullOf s s.active <;> simp_all

/-- `t` is `s` with the oldest word `w` of port `p` taken for execution. -/
structure Taken (p : Port) (w : Word64) (s t : State) : Prop where
  frame : t = { s with pIn := t.pIn, cIn := t.cIn, cur := p, grants := t.grants, turn := t.turn }
  head : pendingOn s p = w :: pendingOn t p
  other : ∀ q, q ≠ p → pendingOn t q = pendingOn s q

theorem spendChoice_eq (s : State) :
    spendChoice s = { s with grants := (spendChoice s).grants, turn := (spendChoice s).turn } := by
  unfold spendChoice; split <;> rfl

theorem takeP_cons {s : State} {w : Word64} {ws : List Word64} (h : s.pIn = w :: ws) :
    takeP s = .command .portP w { s with pIn := ws, cur := .portP } := by simp [takeP, h]

theorem takeC_cons {s : State} {w : Word64} {ws : List Word64} (h : s.cIn = w :: ws) :
    takeC s = .command .portC w { s with cIn := ws, cur := .portC } := by simp [takeC, h]

theorem taken_p {s u : State} {w : Word64} {ws : List Word64} (h : s.pIn = w :: ws)
    (hu : u = { s with grants := u.grants, turn := u.turn }) : Taken .portP w s { u with pIn := ws, cur := .portP } := by
  refine ⟨by rw [hu], by simp [pendingOn, h], ?_⟩
  intro q hq; cases q
  · exact absurd rfl hq
  · rw [hu]; rfl

theorem taken_c {s u : State} {w : Word64} {ws : List Word64} (h : s.cIn = w :: ws)
    (hu : u = { s with grants := u.grants, turn := u.turn }) : Taken .portC w s { u with cIn := ws, cur := .portC } := by
  refine ⟨by rw [hu], by simp [pendingOn, h], ?_⟩
  intro q hq; cases q
  · rw [hu]; rfl
  · exact absurd rfl hq

/-- What the ports offer (R67, R110): nothing when both are empty, else the oldest word of one of them. -/
theorem arrival_cases (s : State) :
    (s.pIn = [] ∧ s.cIn = [] ∧ arrival s = .idle) ∨ ∃ p w t, arrival s = .command p w t ∧ Taken p w s t := by
  unfold arrival
  cases hp : s.pIn with
  | nil =>
    cases hc : s.cIn with
    | nil => left; simp [takeP, hp]
    | cons v vs => right; exact ⟨_, _, _, by simp [takeC_cons hc], taken_c (u := s) hc rfl⟩
  | cons w ws =>
    right
    cases hc : s.cIn with
    | nil => exact ⟨_, _, _, by simp [takeP_cons hp], taken_p (u := s) hp rfl⟩
    | cons v vs =>
      cases hch : chosenPort s
      · exact ⟨_, _, _, by simp [takeP_cons (s := spendChoice s) (by simpa using hp)], taken_p hp (spendChoice_eq s)⟩
      · exact ⟨_, _, _, by simp [takeC_cons (s := spendChoice s) (by simpa using hc)], taken_c hc (spendChoice_eq s)⟩

/-- `u` has the ports, the configuration and the reset input of `s`. -/
structure PortsKept (s u : State) : Prop where
  cur : u.cur = s.cur
  pIn : u.pIn = s.pIn
  cIn : u.cIn = s.cIn
  pResp : u.pResp = s.pResp
  cResp : u.cResp = s.cResp
  cfg : u.cfg = s.cfg
  grants : u.grants = s.grants
  turn : u.turn = s.turn
  resetIn : u.resetIn = s.resetIn

/-- Every command answers a next state: one response on top of a state whose ports are as before (R88, R73). -/
theorem exec_answers (i : Instr) (s : State) : ∃ r u, exec i s = .next (respond r u) ∧ PortsKept s u := by
  have hf : ∀ f, ∃ r u,
      (Host.Outcome.next (raiseFault f s) : Host.Outcome State Fault Refusal) = .next (respond r u) ∧ PortsKept s u :=
    fun f => ⟨_, _, rfl, by constructor <;> simp⟩
  cases i <;>
    simp only [exec, execNop, execPStart, execPPush, execPStop, execCStart, execCFft, execCEnd, execCCompress, execRdStatus]
  all_goals repeat' split
  all_goals first
    | exact hf _
    | exact ⟨_, _, rfl, by constructor <;> simp⟩

/-- The same of a command word: one response, whether it faults or not. -/
theorem runCommand_answers (p : Port) (w : Word64) (s : State) :
    ∃ r u, runCommand p w s = .next (respond r u) ∧ PortsKept s u := by
  unfold runCommand
  split
  · exact ⟨_, _, rfl, by constructor <;> simp⟩
  · exact exec_answers _ _

/-- What a step can do: reset, hold, or run the oldest word of one port; a word either faults in decoding or is a command. -/
theorem step_cases {s t : State} (h : step s = .next t) :
    (s.resetIn = true ∧ t = applyReset s) ∨
    (s.resetIn = false ∧ s.pIn = [] ∧ s.cIn = [] ∧ t = s) ∨
    ∃ p w u, s.resetIn = false ∧ arrival s = .command p w u ∧ Taken p w s u ∧
      ((∃ f, decode p w = .error f ∧ t = raiseFault f u) ∨ ∃ i, decode p w = .ok i ∧ exec i u = .next t) := by
  unfold step at h
  cases hr : s.resetIn with
  | true => left; simp [hr] at h; exact ⟨rfl, h.symm⟩
  | false =>
    right
    simp only [hr] at h
    rcases arrival_cases s with ⟨h1, h2, h3⟩ | ⟨p, w, u, h1, h2⟩
    · left; simp [h3] at h; exact ⟨rfl, h1, h2, h.symm⟩
    · right
      refine ⟨p, w, u, rfl, h1, h2, ?_⟩
      simp only [h1, runCommand] at h
      cases hd : decode p w with
      | error f => left; rw [hd] at h; exact ⟨f, rfl, by cases h; rfl⟩
      | ok i => right; rw [hd] at h; exact ⟨i, rfl, by simpa using h⟩

end Sys2Proof.Machine
end

