-- ==== Sys2Proof/Laws/Inv.lean ====
section
/-! SUPPORT. What the shared operations do to the sizes of the storage spaces (spec/20_memory.md R50) and to the invariant:
taking a command, answering it and faulting keep both; every write to a storage space keeps its size. -/

namespace Sys2Proof.Machine

/-! ## The sizes -/

theorem initial_sized (c : Config) : (State.initial c).Sized := by constructor <;> simp [State.initial]

theorem reset_sized : State.reset.Sized := initial_sized exampleConfig

theorem respond_sized {s : State} (r : Response) (h : s.Sized) : (respond r s).Sized := by
  obtain ⟨h0, h1, h2, h3⟩ := h
  constructor <;> simpa

/-- `SlotWrite` replaces an element and adds none. -/
theorem slotWrite_sized {s : State} (x : Slot) (i : Nat) (e : Cplx) (h : s.Sized) : (slotWrite x i e s).Sized := by
  obtain ⟨h0, h1, h2, h3⟩ := h
  cases x <;> constructor <;> simpa [slotWrite, setSlot, slotOf]

theorem clearSlot_sized {s : State} (x : Slot) (h : s.Sized) : (clearSlot x s).Sized := by
  obtain ⟨h0, h1, h2, h3⟩ := h
  cases x <;> constructor <;> simp_all [clearSlot, setSlot]

theorem writeSpectrum_sized {s : State} {bins : List Cplx} (hb : bins.length = s.cfg.m + 1) (h : s.Sized) :
    (writeSpectrum bins s).Sized := ⟨h.slot0_length, h.slot1_length, hb, h.fill_le⟩

theorem appendOut_sized {s : State} (bytes : List Byte) (h : s.Sized) : (appendOut bytes s).Sized :=
  ⟨h.slot0_length, h.slot1_length, h.spec_length, h.fill_le⟩

theorem setFull_sized {s : State} (x : Slot) (b : Bool) (h : s.Sized) : (setFull x b s).Sized := by
  obtain ⟨h0, h1, h2, h3⟩ := h
  cases x <;> constructor <;> simpa [setFull]

theorem exitSection_sized {s : State} (h : s.Sized) : (exitSection s).1.Sized := by
  obtain ⟨h0, h1, h2, h3⟩ := h
  rcases exitSection_cases s with ⟨_, _, e⟩ | ⟨_, e⟩ <;> rw [e] <;> constructor <;> simpa

/-- The transform gives `M + 1` bins (spec/41_fft.md R159). -/
theorem realFft_length (c : Config) (x : List Cplx) : (realFft c x).length = c.m + 1 := by simp [realFft, combineBins]

theorem emit32_length (o : ByteOrder) (v : Word32) : (emit32 o v).length = 4 := by cases o <;> rfl

theorem emitEntry_length (o : ByteOrder) (k : Nat) (b : Cplx) : (emitEntry o k b).length = 12 := by
  simp [emitEntry, emit32_length]

theorem emitEntries_cons (o : ByteOrder) (bins : List Cplx) (k : Nat) (ks : List Nat) :
    emitEntries o bins (k :: ks) = emitEntry o k (binAt bins k) ++ emitEntries o bins ks := rfl

theorem emitEntries_length (o : ByteOrder) (bins : List Cplx) (ks : List Nat) :
    (emitEntries o bins ks).length = 12 * ks.length := by
  induction ks with
  | nil => rfl
  | cons k ks ih => rw [emitEntries_cons]; simp [emitEntry_length, ih]; omega

/-! ## The invariant -/

theorem toByte_le (f : FaultCode) : f.toByte.toNat ≤ 12 := by cases f <;> decide

/-- Taking a command from its port touches the ports only. -/
theorem taken_inv {p : Port} {w : Word64} {s u : State} (h : Taken p w s u) (hi : s.Inv) : u.Inv := by
  rw [h.frame]
  obtain ⟨a, b, c, d, e, f, g, i, j, ⟨k, l, m, n⟩⟩ := hi
  exact ⟨a, b, c, d, e, f, g, i, j, ⟨k, l, m, n⟩⟩

theorem respond_inv {s : State} (r : Response) (hi : s.Inv) : (respond r s).Inv := by
  obtain ⟨a, b, c, d, e, f, g, i, j, ⟨k, l, m, n⟩⟩ := hi
  constructor <;> try simpa
  constructor <;> simpa

/-- A fault keeps the invariant: it writes `ERR` and nothing else (R222). -/
theorem raiseFault_inv {s : State} (f : FaultCode) (hi : s.Inv) : (raiseFault f s).Inv := by
  rw [raiseFault_eq]
  apply respond_inv
  obtain ⟨a, b, c, d, e, f', g, i, j, ⟨k, l, m, n⟩⟩ := hi
  refine ⟨a, b, c, d, e, f', g, i, ?_, ⟨k, l, m, n⟩⟩
  dsimp only
  split
  · exact toByte_le f
  · exact j

/-- Inside the invariant `CONCURRENT` is the count of the two flags (R120). -/
theorem concurrent_of_inv {s : State} (hi : s.Inv) : s.concurrent = BitVec.ofNat 2 (s.wIn.toNat + s.rIn.toNat) := by
  rw [← hi.concurrent_eq]; simp

end Sys2Proof.Machine
end

