-- ==== Sys2Proof/Laws/Memory.lean ====
section
/-! SUPPORT. Reading after writing in the storage spaces (spec/20_memory.md R51, R53, R56): a write is read back where it was
made and leaves every other place alone. -/

namespace Sys2Proof.Machine

@[simp] theorem slotOf_setSlot_same (x : Slot) (w : List Cplx) (s : State) : slotOf (setSlot x w s) x = w := by
  cases x <;> rfl

theorem slotOf_setSlot_other {x y : Slot} (h : y ≠ x) (w : List Cplx) (s : State) :
    slotOf (setSlot x w s) y = slotOf s y := by
  cases x <;> cases y <;> first | rfl | exact absurd rfl h

/-- A `SlotWrite` is read back. -/
theorem slotRead_slotWrite_same {x : Slot} {i : Nat} {s : State} (h : i < (slotOf s x).length) (e : Cplx) :
    slotRead (slotWrite x i e s) x i = e := by
  simp [slotRead, slotWrite, h]

/-- A `SlotWrite` leaves every other element of its slot alone. -/
theorem slotRead_slotWrite_other_index {i k : Nat} (h : k ≠ i) (x : Slot) (e : Cplx) (s : State) :
    slotRead (slotWrite x i e s) x k = slotRead s x k := by
  simp [slotRead, slotWrite, h.symm]

/-- A `SlotWrite` leaves the other slot alone. -/
theorem slotRead_slotWrite_other_slot {x y : Slot} (h : y ≠ x) (i k : Nat) (e : Cplx) (s : State) :
    slotRead (slotWrite x i e s) y k = slotRead s y k := by
  simp [slotRead, slotWrite, slotOf_setSlot_other h]

/-- A cleared slot reads as zeros (R114). -/
theorem slotRead_clearSlot_same (x : Slot) (k : Nat) (s : State) : slotRead (clearSlot x s) x k = cZero := by
  simp only [slotRead, clearSlot, slotOf_setSlot_same, List.getD_eq_getElem?_getD, List.getElem?_replicate]
  split <;> rfl

/-- Clearing a slot leaves the other one alone. -/
theorem slotRead_clearSlot_other {x y : Slot} (h : y ≠ x) (k : Nat) (s : State) :
    slotRead (clearSlot x s) y k = slotRead s y k := by
  simp [slotRead, clearSlot, slotOf_setSlot_other h]

/-- The spectrum buffer reads what the transform wrote. -/
theorem binAt_writeSpectrum (bins : List Cplx) (s : State) (k : Nat) :
    binAt (writeSpectrum bins s).spec k = binAt bins k := rfl

/-- A packet is appended behind what `OUT` held. -/
theorem out_appendOut (bytes : List Byte) (s : State) : (appendOut bytes s).out = s.out ++ bytes := rfl

/-- The fault as the statements write it (R222, R223). -/
theorem raiseFault_eq_faulted (f : FaultCode) (s : State) : raiseFault f s = faulted f.toByte s := raiseFault_eq f s

end Sys2Proof.Machine
end

