-- ==== Sys2Proof/Laws/Words.lean ====
section
/-! SUPPORT. The fields of a command word as numbers, and what the decoder's two halves say once. -/

namespace Sys2Proof

/-- Concatenation as arithmetic. -/
theorem toNat_append_eq {n m : Nat} (a : BitVec n) (b : BitVec m) : (a ++ b).toNat = a.toNat * 2 ^ m + b.toNat := by
  rw [BitVec.toNat_append, ← Nat.shiftLeft_add_eq_or_of_lt b.isLt, Nat.shiftLeft_eq]

theorem opcField_toNat (w : Word64) : (opcField w).toNat = w.toNat % 256 := by
  simp [opcField, BitVec.extractLsb'_toNat]

theorem rsvField_toNat (w : Word64) : (rsvField w).toNat = w.toNat / 256 % 2 ^ 24 := by
  simp [rsvField, BitVec.extractLsb'_toNat, Nat.shiftRight_eq_div_pow]

theorem operandField_toNat (w : Word64) : (operandField w).toNat = w.toNat / 2 ^ 32 := by
  have := w.isLt
  simp [operandField, BitVec.extractLsb'_toNat, Nat.shiftRight_eq_div_pow]
  omega

/-- A word is its three fields (R80). -/
theorem word_toNat_fields (w : Word64) :
    w.toNat = (operandField w).toNat * 2 ^ 32 + (rsvField w).toNat * 2 ^ 8 + (opcField w).toNat := by
  rw [opcField_toNat, rsvField_toNat, operandField_toNat]; omega

theorem encode_toNat (i : Instr) : (encode i).toNat = (operandOf i).toNat * 2 ^ 32 + (opcOf i).toNat := by
  unfold encode
  refine (toNat_append_eq _ _).trans ?_
  rw [toNat_append_eq]; simp; omega

@[simp] theorem opcField_encode (i : Instr) : opcField (encode i) = opcOf i := by
  apply BitVec.eq_of_toNat_eq; rw [opcField_toNat, encode_toNat]; have := (opcOf i).isLt; omega

@[simp] theorem rsvField_encode (i : Instr) : rsvField (encode i) = 0 := by
  apply BitVec.eq_of_toNat_eq; rw [rsvField_toNat, encode_toNat]; have := (opcOf i).isLt; simp; omega

@[simp] theorem operandField_encode (i : Instr) : operandField (encode i) = operandOf i := by
  apply BitVec.eq_of_toNat_eq; rw [operandField_toNat, encode_toNat]; have := (opcOf i).isLt; omega

/-- An opcode field compared with a number. -/
theorem opcField_eq_ofNat (w : Word64) (k : Nat) (hk : k < 256) : opcField w = BitVec.ofNat 8 k ↔ w.toNat % 256 = k := by
  rw [← opcField_toNat]
  constructor
  · intro h; rw [h]; simp; omega
  · intro h; apply BitVec.eq_of_toNat_eq; simp [h]; omega

/-- What a selected command is: its opcode is the field, its operand the operand field or none. -/
theorem selectCommand_some {opc : BitVec 8} {x : Word32} {i : Instr} (h : selectCommand opc x = some i) :
    opcOf i = opc ∧ (takesOperand i = true → operandOf i = x) ∧ (takesOperand i = false → operandOf i = 0) := by
  unfold selectCommand at h
  repeat' split at h
  all_goals first
    | (simp at h; done)
    | (cases h; simp_all [opcOf, operandOf, takesOperand])

/-- What an accepted word is. -/
theorem decodeWord_ok {w : Word64} {i : Instr} (h : decodeWord w = .ok i) :
    selectCommand (opcField w) (operandField w) = some i ∧ rsvField w = 0 ∧
      (takesOperand i = false → operandField w = 0) := by
  unfold decodeWord at h
  split at h
  · simp at h
  · split at h
    · simp at h
    · split at h
      · simp at h
      · cases h; simp_all

/-- Decoding on a port is decoding the word and then the port check (R86). -/
theorem decode_ok {p : Port} {w : Word64} {i : Instr} (h : decode p w = .ok i) :
    decodeWord w = .ok i ∧ i.acceptedOn p = true := by
  unfold decode at h
  split at h
  · simp at h
  · split at h
    · cases h; simp_all
    · simp at h

end Sys2Proof
end

