-- ==== Sys2Proof/Laws/PerInstr.lean ====
section
/-! SUPPORT. What is said of every command as syntax, one lemma for each: the shape of its command word. -/

namespace Sys2Proof.Laws.EncodeShape

/-- The command word of `i`: its opcode is one of the map (spec/30_encoding.md R84), its reserved bits are zero (R82), its
operand is zero unless the command takes one (R83), and some port accepts it (R85). -/
def Statement (i : Instr) : Prop :=
  selectCommand (opcOf i) (operandOf i) = some i ∧ rsvField (encode i) = 0 ∧
    (takesOperand i = false → operandField (encode i) = 0) ∧ ∃ p, i.acceptedOn p = true

theorem nop : Statement .nop := ⟨rfl, by decide, by decide, .portP, rfl⟩

theorem pStart : Statement .pStart := ⟨rfl, by decide, by decide, .portP, rfl⟩

theorem pPush (sample : Word32) : Statement (.pPush sample) :=
  ⟨rfl, rsvField_encode _, by simp [takesOperand], .portP, rfl⟩

theorem pStop : Statement .pStop := ⟨rfl, by decide, by decide, .portP, rfl⟩

theorem cStart : Statement .cStart := ⟨rfl, by decide, by decide, .portC, rfl⟩

theorem cFft : Statement .cFft := ⟨rfl, by decide, by decide, .portC, rfl⟩

theorem cEnd : Statement .cEnd := ⟨rfl, by decide, by decide, .portC, rfl⟩

theorem cCompress : Statement .cCompress := ⟨rfl, by decide, by decide, .portC, rfl⟩

theorem rdStatus (sel : Word32) : Statement (.rdStatus sel) :=
  ⟨rfl, rsvField_encode _, by simp [takesOperand], .portP, rfl⟩

end Sys2Proof.Laws.EncodeShape
end

