-- ==== Sys2Proof/Tests/Slice0.lean ====
section
/-! SUPPORT. The model's own tests. Expected values are those of spec/95_test_vectors.md (its ids stand in the comments) or
words written out from spec/30_encoding.md; and, for every statement with hypotheses, a witness that meets them. -/

namespace Sys2Proof.Tests

-- Theorems are checked one after another: many evaluations at once take too much memory.
set_option Elab.async false

open Sys2Proof Sys2Proof.Machine

/-! ## Well-formedness -/

/-- `SEL = 3` is the last selector defined (R211). -/
theorem test_wf_selector_accepted : (Instr.rdStatus 3).wf = true := by decide

/-- An ill-formed selector is refused by the check. -/
theorem test_wf_selector_refused : (Instr.rdStatus 4).wf = false ∧ (Instr.rdStatus 0x80000000).wf = false := by decide

/-- Port rights: each command of one port is refused on the other (R84, R85). -/
theorem test_port_rights_refused :
    ∀ i ∈ [Instr.pStart, .pPush 0, .pStop], i.acceptedOn .portP = true ∧ i.acceptedOn .portC = false := by decide

theorem test_port_rights_refused_consumer :
    ∀ i ∈ [Instr.cStart, .cFft, .cEnd, .cCompress], i.acceptedOn .portC = true ∧ i.acceptedOn .portP = false := by decide

theorem test_port_rights_both :
    ∀ i ∈ [Instr.nop, .rdStatus 0], i.acceptedOn .portP = true ∧ i.acceptedOn .portC = true := by decide

/-! ## Decoding: words written out field by field (OPERAND, RSV, OPC) -/

/-- A word from its three fields, as R80 draws them. -/
def wordOf (operand : BitVec 32) (rsv : BitVec 24) (opc : BitVec 8) : Word64 := operand ++ rsv ++ opc

theorem test_decode_nop : ∀ p ∈ [Port.portP, .portC], decode p (wordOf 0 0 0b00000000#8) = .ok .nop := by decide

theorem test_decode_pStart : decode .portP (wordOf 0 0 0b00000001#8) = .ok .pStart := by decide

theorem test_decode_pPush :
    decode .portP (wordOf 0b11111111100000000000000000000001#32 0 0b00000010#8) = .ok (.pPush 0xFF800001) := by decide

theorem test_decode_pStop : decode .portP (wordOf 0 0 0b00000011#8) = .ok .pStop := by decide

theorem test_decode_cStart : decode .portC (wordOf 0 0 0b00010001#8) = .ok .cStart := by decide

theorem test_decode_cFft : decode .portC (wordOf 0 0 0b00010010#8) = .ok .cFft := by decide

theorem test_decode_cEnd : decode .portC (wordOf 0 0 0b00010011#8) = .ok .cEnd := by decide

theorem test_decode_cCompress : decode .portC (wordOf 0 0 0b00010100#8) = .ok .cCompress := by decide

theorem test_decode_rdStatus :
    decode .portC (wordOf 0b00000000000000000000000000000011#32 0 0b00100000#8) = .ok (.rdStatus 3) := by decide

/-- V1 to V6, V10: the checks and their order (R86). -/
theorem test_decode_checks :
    decode .portP 0x00000000000000FF = .error .illegalOpcode ∧ decode .portC 0x0000000000000115 = .error .illegalOpcode ∧
    decode .portC 0x0000000000000111 = .error .reservedNonzero ∧ decode .portP 0x0000000000000111 = .error .reservedNonzero ∧
    decode .portC 0x0000000100000011 = .error .reservedNonzero ∧ decode .portC 0x3F80000000000002 = .error .wrongPort ∧
    decode .portP 0xFFFFFFFF00000000 = .error .reservedNonzero := by decide

/-- The opcode table's words: an 8-bit row is the word with zeros above it. -/
theorem test_decodeTableWord : decodeTableWord 8 0x13 = some .cEnd ∧ decodeTableWord 64 0x100000020 = some (.rdStatus 1) ∧
    decodeTableWord 8 0x04 = none := by decide

/-! ## Small states -/

/-- The block of the vectors of spec/95_test_vectors.md: N = 8. -/
def eight : Config := ⟨3, 0x3C23D70B, .le, tw8⟩

/-- The smallest block: N = 2, M = 1. -/
def tiny : Config := ⟨1, 0x3C23D70B, .le, [⟨0x3F800000, 0x00000000⟩]⟩

/-- A state of the notation of spec/95_test_vectors.md, with no spectrum and no fault. -/
def handoff (c : Config) (active : Slot) (concurrent : BitVec 2) (full0 full1 wIn rIn : Bool) (fill : Nat)
    (lastW : Option Slot) (md : Bool) : State :=
  { State.initial c with
    active := active, concurrent := concurrent, full0 := full0, full1 := full1, wIn := wIn, rIn := rIn, fill := fill
    lastWValid := lastW.isSome, lastW := lastW.getD .s0, md := md }

/-- The state after one command word on a port that has none pending. -/
def after (p : Port) (w : Word64) (s : State) : State :=
  match step (applyEvent (.issue p w) s) with
  | .next t => t
  | .fault _ => s
  | .refused _ => s

/-- The flags of a state in the order of the vectors' notation. -/
structure Flags where
  active : Slot
  concurrent : Nat
  full0 : Bool
  full1 : Bool
  wIn : Bool
  rIn : Bool
  fill : Nat
  lastW : Slot
  md : Bool
  deriving DecidableEq, Repr

def flags (s : State) : Flags := ⟨s.active, s.concurrent.toNat, s.full0, s.full1, s.wIn, s.rIn, s.fill, s.lastW, s.md⟩

/-! ## One command each -/

/-- V9. -/
theorem test_nop : (after .portC 0x0000000000000000 (State.initial eight)).cResp = [0x0000000000000001] := by decide

/-- V11: the first `P.START`. -/
theorem test_pStart_first :
    let t := after .portP 0x0000000000000001 (State.initial eight)
    t.pResp = [0x0000000000000001] ∧ flags t = ⟨.s0, 1, false, false, true, false, 0, .s0, false⟩ := by decide

/-- V13: the Missed Deadline. -/
theorem test_pStart_missed_deadline :
    let t := after .portP 0x0000000000000001 (handoff eight .s1 1 true true false true 0 (some .s1) false)
    t.pResp = [0x000000000000000D] ∧ flags t = ⟨.s1, 2, true, true, true, true, 0, .s1, true⟩ := by decide

/-- V16: the last sample of the Window, a NaN, stored unchanged. -/
theorem test_pPush_last_sample :
    let t := after .portP 0xFF80000100000002 (handoff eight .s0 1 false false true false 7 none false)
    t.pResp = [0x0000000800000001] ∧ t.fill = 8 ∧ slotRead t .s0 7 = ⟨0xFF800001, 0x00000000⟩ ∧
      slotRead t .s1 7 = ⟨0x00000000, 0x00000000⟩ := by decide

/-- V17: one sample too many. -/
theorem test_pPush_overflow :
    let t := after .portP 0x3F80000000000002 (handoff eight .s0 1 false false true false 8 none false)
    t.pResp = [0x0000000000000600] ∧ t.fill = 8 ∧ t.err = 6 := by decide

/-- V22: the flip drops an unread Window. -/
theorem test_pStop_flip :
    let t := after .portP 0x0000000000000003 (handoff eight .s1 1 true false true false 8 (some .s0) false)
    t.pResp = [0x0000000000000015] ∧ flags t = ⟨.s0, 0, false, true, false, false, 8, .s1, false⟩ := by decide

/-- V21: the flip is deferred. -/
theorem test_pStop_deferred :
    let t := after .portP 0x0000000000000003 (handoff eight .s1 2 true false true true 8 (some .s0) false)
    t.pResp = [0x0000000000000005] ∧ flags t = ⟨.s1, 1, true, true, false, true, 8, .s1, false⟩ := by decide

/-- V25: no new Window. -/
theorem test_cStart_nothing_new :
    let t := after .portC 0x0000000000000011 (State.initial eight)
    t.cResp = [0x0000000000000001] ∧ flags t = flags (State.initial eight) := by decide

/-- V27: slot 1 granted while the producer is inside slot 0. -/
theorem test_cStart_granted :
    let t := after .portC 0x0000000000000011 (handoff eight .s0 1 false true true false 2 (some .s1) false)
    t.cResp = [0x0000000000000007] ∧ flags t = ⟨.s0, 2, false, true, true, true, 2, .s1, false⟩ := by decide

/-- V30: the consumer performs the deferred flip. -/
theorem test_cEnd_flip :
    let t := after .portC 0x0000000000000013 (handoff eight .s1 1 true true false true 0 (some .s1) false)
    t.cResp = [0x0000000000000011] ∧ flags t = ⟨.s0, 0, false, true, false, false, 0, .s1, false⟩ := by decide

/-- V31: no flip after the Missed Deadline. -/
theorem test_cEnd_stranded :
    let t := after .portC 0x0000000000000013 (handoff eight .s1 2 true true true true 0 (some .s1) true)
    t.cResp = [0x0000000000000001] ∧ flags t = ⟨.s1, 1, false, true, true, false, 0, .s1, true⟩ := by decide

/-- F10: the ramp 0 to 7 held in slot 0. -/
theorem test_cFft_ramp :
    let s := { handoff eight .s1 1 true false false true 8 (some .s0) false with
      slot0 := [0x00000000, 0x3F800000, 0x40000000, 0x40400000, 0x40800000, 0x40A00000, 0x40C00000, 0x40E00000].map
        sampleElement }
    let t := after .portC 0x0000000000000012 s
    t.cResp = [0x0000000000000001] ∧ t.specValid = true ∧
      t.spec = [⟨0x41E00000, 0x00000000⟩, ⟨0xC0800000, 0x411A827A⟩, ⟨0xC0800000, 0x40800000⟩, ⟨0xC0800000, 0x3FD413CC⟩,
        ⟨0xC0800000, 0x00000000⟩] := by decide +kernel

/-- F16: an infinity in the odd half; bin 0 is a NaN by the multiplication by `TW[0]` (R162). -/
theorem test_cFft_infinity :
    realFft eight ([0x00000000, 0x7F800000, 0x00000000, 0x00000000, 0x00000000, 0x00000000, 0x00000000, 0x00000000].map
        sampleElement) =
      [⟨0x7F800000, 0x7FC00000⟩, ⟨0x7F800000, 0xFF800000⟩, ⟨0x7FC00000, 0xFF800000⟩, ⟨0xFF800000, 0xFF800000⟩,
        ⟨0xFF800000, 0x00000000⟩] := by decide +kernel

/-- K2: one bin, little-endian. -/
theorem test_cCompress_one_bin :
    let s := { State.initial eight with
      specValid := true
      spec := [⟨0, 0⟩, ⟨0, 0⟩, ⟨0, 0⟩, ⟨0x40400000, 0xC0800000⟩, ⟨0, 0⟩] }
    let t := after .portC 0x0000000000000014 s
    t.cResp = [0x0000000100000001] ∧
      t.out = [0x03, 0x00, 0x00, 0x00, 0x00, 0x00, 0x40, 0x40, 0x00, 0x00, 0x80, 0xC0, 0x00, 0x00, 0xC0, 0x7F] := by
  decide +kernel

/-- K5: a tie of the peak, the first bin wins; big-endian does not change which bins are included. -/
theorem test_cCompress_tie :
    includedBins { tiny with log2n := 2, byteOrder := .be }
      [⟨0x3F000000, 0x3F000000⟩, ⟨0x3F800000, 0x00000000⟩, ⟨0x3DA3D70A, 0x00000000⟩] = [0, 1, 2] := by decide +kernel

/-- V35: every field of the status word set. -/
theorem test_rdStatus_status :
    let s := { handoff eight .s1 2 true true true true 0 (some .s1) true with specValid := true, err := 8 }
    (after .portC 0x0000000000000020 s).cResp = [0x000807FD00000001] := by decide

/-- V39, V7: the configuration word of a big-endian N = 64 block; an undefined selector. -/
theorem test_rdStatus_config_and_bad_selector :
    (after .portC 0x0000000200000020 (State.initial { eight with log2n := 6, byteOrder := .be })).cResp =
      [0x0000010600000001] ∧
    (after .portP 0x0000000400000020 (State.initial eight)).pResp = [0x0000000000000C00] := by decide

/-- V8: a later fault leaves `ERR` at its first value. -/
theorem test_first_fault_latched :
    let t := after .portP 0x0000000000000007 { State.initial eight with err := 3 }
    t.pResp = [0x0000000000000100] ∧ t.err = 3 := by decide

/-- A word placed for the next step runs in it, after reset and while the other port has a command pending. -/
theorem test_withFetchWord :
    (∃ t, step (State.reset.withFetchWord 8 0x01) = .next t ∧ t.wIn = true) ∧
    ∃ t, step ({ State.reset with pIn := [0] }.withFetchWord 8 0x11) = .next t ∧ t.cResp = [0x0000000000000001] ∧
      t.pIn = [0] := ⟨⟨_, rfl, by decide⟩, ⟨_, rfl, by decide, by decide⟩⟩

/-- The configuration of `State.reset` is a legal one (R6, R7). -/
theorem test_exampleConfig_legal : configLegal exampleConfig = true := by decide +kernel

/-! ## Witnesses: states and operands that meet the hypotheses of each statement, clause by clause -/

/-- Inside the write section, a whole Window pushed. -/
def writing : State := handoff tiny .s0 1 false false true false 2 none false

/-- The first Window published and flipped in. -/
def published : State := handoff tiny .s1 0 true false false false 2 (some .s0) false

/-- The first Window held by the consumer. -/
def holding : State := handoff tiny .s1 1 true false false true 2 (some .s0) false

/-- The first Window held, the second pushed. -/
def both : State := handoff tiny .s1 2 true false true true 2 (some .s0) false

/-- The first Window held, the second published, its flip pending. -/
def waiting : State := handoff tiny .s1 1 true true false true 2 (some .s1) false

/-- After the Missed Deadline, the first Window still held. -/
def missed : State := handoff tiny .s1 2 true true true true 0 (some .s1) true

/-- After the Missed Deadline, the hold ended. -/
def stranded : State := handoff tiny .s1 1 false true true false 0 (some .s1) true

theorem writing_inv : writing.Inv := by
  constructor <;> first | decide | (intro x; cases x <;> decide) | (constructor <;> decide)

theorem published_inv : published.Inv := by
  constructor <;> first | decide | (intro x; cases x <;> decide) | (constructor <;> decide)

theorem holding_inv : holding.Inv := by
  constructor <;> first | decide | (intro x; cases x <;> decide) | (constructor <;> decide)

theorem both_inv : both.Inv := by
  constructor <;> first | decide | (intro x; cases x <;> decide) | (constructor <;> decide)

theorem waiting_inv : waiting.Inv := by
  constructor <;> first | decide | (intro x; cases x <;> decide) | (constructor <;> decide)

theorem missed_inv : missed.Inv := by
  constructor <;> first | decide | (intro x; cases x <;> decide) | (constructor <;> decide)

theorem stranded_inv : stranded.Inv := by
  constructor <;> first | decide | (intro x; cases x <;> decide) | (constructor <;> decide)

theorem witness_DecodeOfEncodeIsTheCommand :
    (Instr.pPush 0x80000000).acceptedOn .portP = true ∧ Instr.cFft.acceptedOn .portC = true ∧
      (Instr.rdStatus 3).acceptedOn .portC = true := by decide

theorem witness_EncodeOfDecodeIsTheWord : decode .portP 0xFF80000100000002 = .ok (.pPush 0xFF800001) := by decide

/-- One word and port for each clause, in the order of the statement, at the boundary of its range. -/
theorem witness_DecodeRunsTheChecksInOrder :
    (0xFFFFFFFFFFFFFF04 : Word64).toNat % 256 ∉ [0x00, 0x01, 0x02, 0x03, 0x11, 0x12, 0x13, 0x14, 0x20] ∧
    ((0x120 : Word64).toNat % 256 = 0x20 ∧ (0x120 : Word64).toNat / 256 % 2 ^ 24 ≠ 0) ∧
    ((0x100000014 : Word64).toNat % 256 = 0x14 ∧ (0x100000014 : Word64).toNat / 256 % 2 ^ 24 = 0 ∧
      (0x100000014 : Word64).toNat / 2 ^ 32 ≠ 0) ∧
    ((0xFFFFFFFF00000002 : Word64).toNat % 256 = 0x02 ∧ (0xFFFFFFFF00000002 : Word64).toNat / 256 % 2 ^ 24 = 0) ∧
    (∀ w ∈ [(0x00 : Word64), 0x01, 0x02, 0x03, 0x11, 0x12, 0x13, 0x14, 0x20],
      w.toNat / 256 % 2 ^ 24 = 0 ∧ w.toNat / 2 ^ 32 = 0) := by simp

theorem witness_StepRunsTheDecodedCommand :
    (∃ t, { published with cIn := [0x11] }.resetIn = false ∧
      arrival { published with cIn := [0x11] } = .command .portC 0x11 t ∧ decode .portC 0x11 = .ok .cStart) ∧
    { published with pIn := [0x01] }.pIn = [0x01] ∧ { published with pIn := [0x01] }.cIn = [] ∧
    { published with cIn := [0x11] }.pIn = [] := ⟨⟨_, rfl, rfl, by decide⟩, rfl, rfl, rfl⟩

theorem witness_EitherPortMayGoFirst :
    let s := fun g => { published with pIn := [0x01], cIn := [0x11], grants := g }
    (∀ g, (s g).pIn = [0x01] ∧ (s g).cIn = [0x11]) ∧ (s [.portP]).grants = [.portP] ∧ (s [.portC]).grants = [.portC] ∧
      (s []).grants = [] := ⟨fun _ => ⟨rfl, rfl⟩, rfl, rfl, rfl⟩

theorem witness_OneResponsePerCommandInPortOrder :
    (published.resetIn = false ∧ step published = .next published) ∧
    ∃ t, step { published with cIn := [0x11, 0x13] } = .next t ∧ t.cResp = [3] ∧ t.cIn = [0x13] :=
  ⟨⟨rfl, rfl⟩, ⟨_, rfl, by decide, rfl⟩⟩

theorem witness_ResetGivesTheResetValues :
    { missed with resetIn := true, err := 8 }.resetIn = true ∧ State.reset.resetIn = false := ⟨rfl, rfl⟩

/-- Configurations on both sides of each bound. -/
theorem witness_MalformedConfigurationIsRefused :
    (1 ≤ tiny.log2n ∧ tiny.log2n ≤ 30 ∧ f32Finite tiny.thresholdSq ∧ 0 ≤ f32Value tiny.thresholdSq ∧
      f32Value tiny.thresholdSq ≤ 1 ∧ tiny.tw = twiddleTable tiny.log2n) ∧
    (f32Finite 0x3F800000 ∧ f32Value 0x3F800000 = 1 ∧ f32Value 0x80000000 = 0) ∧
    (1 < f32Value 0x3F800001 ∧ f32Value 0x80000001 < 0 ∧ ¬f32Finite 0x7F800001) ∧ ¬(1 ≤ 0) ∧ ¬(31 ≤ 30) := by
  refine ⟨⟨by decide, by decide, by simp [f32Finite, tiny], ?_, ?_, by decide +kernel⟩, ⟨by simp [f32Finite], ?_, ?_⟩,
    ⟨?_, ?_, by simp [f32Finite]⟩, by decide, by decide⟩ <;> simp [f32Value, tiny] <;> norm_num

/-- One command word, port and state for each row of the table of R224, in its order. -/
theorem witness_FirstFaultOfTheTableAndNothingElse :
    firstFault .portP 0xFF published = some .illegalOpcode ∧ firstFault .portC 0x112 missed = some .reservedNonzero ∧
    firstFault .portC 0x100000012 missed = some .reservedNonzero ∧ firstFault .portC 0x02 missed = some .wrongPort ∧
    firstFault .portP 0x12 missed = some .wrongPort ∧ firstFault .portP 0x400000020 missed = some .badSelector ∧
    firstFault .portP 0x01 missed = some .ingestHalted ∧ firstFault .portP 0x01 both = some .pReenter ∧
    firstFault .portP 0x02 holding = some .pNotWriting ∧ firstFault .portP 0x03 holding = some .pNotWriting ∧
    firstFault .portP 0x02 both = some .windowOverflow ∧
    firstFault .portP 0x03 { both with fill := 1 } = some .windowIncomplete ∧
    firstFault .portC 0x11 both = some .cReenter ∧ firstFault .portC 0x12 stranded = some .cNotReading ∧
    firstFault .portC 0x13 stranded = some .cNotReading ∧ firstFault .portC 0x14 both = some .noSpectrum := by decide

theorem witness_NoFaultMeansSuccess :
    firstFault .portP 0x300000020 missed = none ∧ firstFault .portP 0x01 published = none ∧
    firstFault .portP 0x02 { both with fill := 1 } = none ∧ firstFault .portP 0x03 both = none ∧
    firstFault .portC 0x11 published = none ∧ firstFault .portC 0x12 missed = none ∧
    firstFault .portC 0x13 missed = none ∧ firstFault .portC 0x14 { missed with specValid := true } = none ∧
    firstFault .portC 0x00 missed = none := by decide

theorem witness_StickyStateAndAppendOnlyOutput :
    let s := { missed with err := 8, specValid := true, cIn := [0x13] }
    ∃ t, step s = .next t ∧ s.resetIn = false ∧ s.md = true ∧ s.specValid = true ∧ s.err ≠ 0 :=
  ⟨_, rfl, rfl, rfl, rfl, by decide⟩

theorem witness_PStartFollowsItsRule :
    missed.md = true ∧ (both.md = false ∧ both.wIn = true) ∧
    (waiting.md = false ∧ waiting.wIn = false ∧ waiting.lastWValid = true ∧ waiting.lastW = waiting.active) ∧
    (published.md = false ∧ published.wIn = false ∧ published.lastW ≠ published.active) ∧
    (State.initial tiny).lastWValid = false := by decide

theorem witness_PPushFollowsItsRule :
    missed.md = true ∧ (holding.md = false ∧ holding.wIn = false) ∧
    (both.md = false ∧ both.wIn = true ∧ both.fill = 2 ^ both.cfg.log2n) ∧
    { both with fill := 1 }.fill ≠ 2 ^ both.cfg.log2n := by decide

theorem witness_SlotElementsChangeOnlyWhereStored :
    { both with fill := 1 }.Sized ∧ (∃ t, exec (.pPush 0x7FC00001) { both with fill := 1 } = .next t) ∧
    published.Sized ∧ (∃ t, exec .pStart published = .next t) ∧ waiting.Sized ∧ ∃ t, exec .pStart waiting = .next t :=
  ⟨by constructor <;> decide, ⟨_, rfl⟩, by constructor <;> decide, ⟨_, rfl⟩, by constructor <;> decide, ⟨_, rfl⟩⟩

theorem witness_PushedWindowIsStoredInOrder :
    let s := { both with fill := 0 }
    s.md = false ∧ s.wIn = true ∧ s.fill = 0 ∧ s.Sized ∧ [(0x3F800000 : Word32), 0xFF800001].length = s.cfg.n :=
  ⟨rfl, rfl, rfl, by constructor <;> decide, by decide⟩

theorem witness_PStopFollowsItsRule :
    missed.md = true ∧ (holding.md = false ∧ holding.wIn = false) ∧
    { both with fill := 1 }.fill ≠ 2 ^ both.cfg.log2n ∧
    (writing.md = false ∧ writing.wIn = true ∧ writing.fill = 2 ^ writing.cfg.log2n ∧ writing.concurrent = 1) ∧
    (both.md = false ∧ both.wIn = true ∧ both.fill = 2 ^ both.cfg.log2n ∧ both.concurrent ≠ 1) := by decide

theorem witness_CStartFollowsItsRule :
    holding.rIn = true ∧ (writing.rIn = false ∧ fullOf writing (otherSlot writing.active) = false) ∧
    (published.rIn = false ∧ fullOf published (otherSlot published.active) = true) := by decide

theorem witness_CEndFollowsItsRule :
    published.rIn = false ∧ (waiting.rIn = true ∧ waiting.concurrent = 1 ∧ fullOf waiting waiting.active = true) ∧
    (holding.rIn = true ∧ holding.concurrent = 1 ∧ fullOf holding holding.active = false) ∧
    (both.rIn = true ∧ both.concurrent ≠ 1) := by decide

theorem witness_CFftFollowsItsRule : published.rIn = false ∧ holding.rIn = true ∧ 0 < holding.cfg.m := by decide

theorem witness_CCompressFollowsItsRule :
    published.specValid = false ∧ { published with specValid := true }.specValid = true := by decide

theorem witness_RdStatusFollowsItsRule :
    (0 : Word32).toNat = 0 ∧ (1 : Word32).toNat = 1 ∧ (2 : Word32).toNat = 2 ∧ (3 : Word32).toNat = 3 ∧
      3 < (4 : Word32).toNat ∧ 3 < (0x80000000 : Word32).toNat := by decide

theorem witness_StatusWordsLayout : ∀ l ∈ [1, 30], 1 ≤ l ∧ l ≤ 30 := by decide

theorem witness_StepKeepsTheInvariant :
    (missed.Inv ∧ ∃ t, step { missed with cIn := [0x13] } = .next t) ∧ { missed with cIn := [0x13] }.Inv :=
  ⟨⟨missed_inv, _, rfl⟩, by
    constructor <;> first | decide | (intro x; cases x <;> decide) | (constructor <;> decide)⟩

theorem witness_HostEventsKeepTheInvariant : published.Inv ∧ HostEvent.takeBytes 4 ≠ .assertReset :=
  ⟨published_inv, by decide⟩

/-- A pending command changes no field that the invariant looks at. -/
theorem pending_inv {s : State} (pIn cIn : List Word64) (h : s.Inv) : { s with pIn := pIn, cIn := cIn }.Inv := by
  obtain ⟨a, b, c, d, e, f, g, i, j, ⟨k, l, m, n⟩⟩ := h
  exact ⟨a, b, c, d, e, f, g, i, j, ⟨k, l, m, n⟩⟩

/-- Both ways of flipping: a `P.STOP` with no read held, and a `C.END` with a publish pending. -/
theorem witness_ActiveChangesOnlyAsTheLastAgentLeaves :
    ({ writing with pIn := [0x03], cIn := [] }.Inv ∧
      ∃ t, step { writing with pIn := [0x03], cIn := [] } = .next t ∧ t.active ≠ writing.active) ∧
    { waiting with pIn := [], cIn := [0x13] }.Inv ∧
      ∃ t, step { waiting with pIn := [], cIn := [0x13] } = .next t ∧ t.active ≠ waiting.active :=
  ⟨⟨pending_inv _ _ writing_inv, _, rfl, by decide⟩, pending_inv _ _ waiting_inv, _, rfl, by decide⟩

/-- A `P.PUSH` during a hold. -/
theorem witness_HeldSlotIsNeverWritten :
    let s := { { both with fill := 1 } with pIn := [0x3F80000000000002], cIn := [] }
    s.Inv ∧ s.rIn = true ∧ s.resetIn = false ∧ ∃ t, step s = .next t ∧ t.rIn = true ∧ slotOf t t.active ≠ slotOf s s.active :=
  ⟨by constructor <;> first | decide | (intro x; cases x <;> decide) | (constructor <;> decide),
    rfl, rfl, _, rfl, rfl, by decide⟩

theorem witness_FullBitsAreSetOnlyByAPublish :
    ({ both with pIn := [0x03], cIn := [] }.Inv ∧ ∃ t, step { both with pIn := [0x03], cIn := [] } = .next t ∧
      fullOf both .s1 = false ∧ fullOf t .s1 = true) ∧
    { holding with pIn := [], cIn := [0x13] }.Inv ∧
      ∃ t, step { holding with pIn := [], cIn := [0x13] } = .next t ∧ holding.rIn = true ∧ t.rIn = false :=
  ⟨⟨pending_inv _ _ both_inv, _, rfl, by decide, by decide⟩, pending_inv _ _ holding_inv, _, rfl, rfl, by decide⟩

theorem witness_GrantedWindowIsTheLatest :
    published.Inv ∧ published.rIn = false ∧ ∃ t, exec .cStart published = .next t ∧ t.rIn = true :=
  ⟨published_inv, rfl, _, rfl, by decide⟩

theorem witness_AbsentConsumerNeverStopsTheProducer :
    writing.Inv ∧ writing.rIn = false ∧ writing.wIn = true ∧ writing.md = false ∧ writing.fill = writing.cfg.n :=
  ⟨writing_inv, rfl, rfl, rfl, by decide⟩

theorem witness_DeferredFlipIsDoneByCEnd :
    both.Inv ∧ both.rIn = true ∧ both.wIn = true ∧ both.md = false ∧ both.fill = both.cfg.n :=
  ⟨both_inv, rfl, rfl, rfl, by decide⟩

/-- One start that detects it and one that does not. -/
theorem witness_MissedDeadlineExactlyWhenTheFlipIsPending :
    (waiting.Inv ∧ waiting.md = false ∧ waiting.wIn = false ∧ ∃ t, exec .pStart waiting = .next t ∧ t.md = true) ∧
    published.Inv ∧ published.md = false ∧ published.wIn = false ∧ ∃ t, exec .pStart published = .next t ∧ t.md = false :=
  ⟨⟨waiting_inv, rfl, rfl, _, rfl, by decide⟩, published_inv, rfl, rfl, _, rfl, by decide⟩

/-- With one step of the consumer between the `P.STOP` and the `P.START`. -/
theorem witness_LateConsumerCausesTheMissedDeadline :
    let s := { both with pIn := [], cIn := [0x12] }
    s.Inv ∧ s.rIn = true ∧ s.wIn = true ∧ s.md = false ∧ s.fill = s.cfg.n ∧
      ∃ t u, exec .pStop s = .next t ∧ Sys2Proof.core.run 1 t = .next u ∧
        ∀ j u', j ≤ 1 → Sys2Proof.core.run j t = .next u' → u'.rIn = true ∧ u'.wIn = false ∧ u'.resetIn = false := by
  refine ⟨pending_inv _ _ both_inv, rfl, rfl, rfl, by decide, _, _, rfl, rfl, ?_⟩
  intro j u' hj h
  obtain rfl | rfl : j = 0 ∨ j = 1 := by omega
  all_goals cases h; exact ⟨rfl, rfl, rfl⟩

theorem witness_MissedDeadlineStrandsUntilReset :
    ({ missed with pIn := [0x01], cIn := [] }.Inv ∧ missed.md = true ∧ missed.resetIn = false ∧
      ∃ t, step { missed with pIn := [0x01], cIn := [] } = .next t) ∧
    { stranded with pIn := [], cIn := [0x11] }.Inv ∧ stranded.md = true ∧ stranded.rIn = false ∧
      ∃ t, step { stranded with pIn := [], cIn := [0x11] } = .next t :=
  ⟨⟨pending_inv _ _ missed_inv, rfl, rfl, _, rfl⟩, pending_inv _ _ stranded_inv, rfl, rfl, _, rfl⟩

theorem witness_EachPortWritesOnlyItsOwnState :
    (Instr.cFft.acceptedOn .portP = false ∧ ∃ t, exec .cFft holding = .next t ∧ t.specValid = true) ∧
    Instr.pStop.acceptedOn .portC = false ∧ ∃ t, exec .pStop both = .next t ∧ t.wIn = false :=
  ⟨⟨rfl, _, rfl, rfl⟩, rfl, _, rfl, by decide⟩

theorem witness_StepKeepsWindowsReal :
    { both with pIn := [0x03], cIn := [] }.Inv ∧ { both with pIn := [0x03], cIn := [] }.RealWindows ∧
      ∃ t, step { both with pIn := [0x03], cIn := [] } = .next t :=
  ⟨pending_inv _ _ both_inv, by intro x _; cases x <;> decide, _, rfl⟩

/-- Two states that differ in the dead slot and in the spectrum buffer, and one step of them. -/
theorem witness_UnspecifiedContentsAreUnobservable :
    let s := { holding with pIn := [], cIn := [0x12] }
    let t := { s with slot1 := [⟨1, 2⟩, ⟨3, 4⟩], spec := [⟨5, 6⟩, ⟨7, 8⟩] }
    s.Inv ∧ SameButUnspecified s t ∧ t ≠ s ∧ ∃ s', Sys2Proof.core.run 1 s = .next s' :=
  ⟨pending_inv _ _ holding_inv,
    ⟨rfl, by intro x; cases x <;> first | (intro _; rfl) | (intro h; exact absurd h (by decide)),
      fun h => absurd h (by decide)⟩, by decide, _, rfl⟩

theorem witness_SumsAreCorrectlyRounded :
    f32Finite 0x7F7FFFFF ∧ f32Finite 0x00000001 ∧
      (f32Value 0x80000000 + f32Value 0x80000000 = 0 ∧ f32Value 0x80000000 - f32Value 0x00000000 = 0) := by
  refine ⟨by simp [f32Finite], by simp [f32Finite], ?_, ?_⟩ <;> simp [f32Value]

theorem witness_ProductsAreCorrectlyRounded : f32Finite 0x7F7FFFFF ∧ f32Finite 0x80000001 := by simp [f32Finite]

theorem witness_QuotientsAreCorrectlyRounded : f32Finite 0x3F800000 ∧ f32Finite 0x00000001 ∧ f32Value 0x00000001 ≠ 0 := by
  refine ⟨by simp [f32Finite], by simp [f32Finite], ?_⟩
  simp [f32Value]

/-- A NaN of each sign, a NaN result, and a finite value of each kind: the least negative one, a zero, the greatest. -/
theorem witness_NanResultsAreCanonical :
    (f32Nan 0x7F800001 ∧ f32Nan 0xFFFFFFFF) ∧ f32Nan (fadd (f32Inf false) (f32Inf true)) ∧
      (f32Finite 0x80000001 ∧ f32Value 0x80000001 ≠ 0) ∧ f32Finite 0x80000000 ∧ f32Finite 0x7F7FFFFF := by
  refine ⟨⟨by simp [f32Nan], by simp [f32Nan]⟩, ?_, ⟨by simp [f32Finite], ?_⟩, by simp [f32Finite], by simp [f32Finite]⟩
  · rw [show fadd (f32Inf false) (f32Inf true) = 0x7FC00000 by decide]; simp [f32Nan]
  · simp [f32Value]

/-- Both zeros, both infinities, the greatest finite value, and NaNs just beyond the infinities. -/
theorem witness_ComparisonsFollowTheValues :
    (¬f32Nan 0x80000000 ∧ ¬f32Nan 0x00000000 ∧ ¬f32Nan 0x7F800000 ∧ ¬f32Nan 0xFF800000) ∧ f32Finite 0xFF7FFFFF ∧
      f32Nan 0x7F800001 ∧ f32Nan 0xFF800001 := by
  simp [f32Nan, f32Finite]

/-- The statement's clauses meet at the infinities: the greatest finite value lies below one and above the other. -/
theorem test_comparisons_at_the_infinities :
    flt 0x7F7FFFFF 0x7F800000 = true ∧ flt 0x7F800000 0x7F800000 = false ∧ fge 0x7F800000 0x7F800000 = true ∧
      fge 0xFF7FFFFF 0xFF800000 = true ∧ feq 0x80000000 0x00000000 = true ∧ fabs 0x80000000 = 0x00000000 ∧
      fabs 0xFF800000 = 0x7F800000 := by decide

theorem witness_PrintedTableIsTheTable : 0 < 2 ^ 1 / 2 ∧ 31 < 2 ^ 6 / 2 := by decide

theorem witness_TwiddleTableIsCorrectlyRounded :
    0 < 2 ^ 1 / 2 ∧ 31 < 2 ^ 6 / 2 ∧ Real.cos (2 * Real.pi * (16 : ℕ) / 2 ^ 6) = 0 := by
  refine ⟨by decide, by decide, ?_⟩
  rw [show 2 * Real.pi * ((16 : ℕ) : ℝ) / 2 ^ 6 = Real.pi / 2 by push_cast; ring]
  exact Real.cos_pi_div_two

theorem witness_BitReversalPermutes : (6 < 2 ^ 3 ∧ 2 < 3) ∧ ([⟨1, 0⟩, ⟨2, 0⟩] : List Cplx).length = 2 ^ 1 ∧ 1 < 2 ^ 1 := by
  decide

theorem witness_PassEqualsItsSimultaneousForm :
    0 < 2 ∧ 2 * 2 ∣ eight.m ∧ (List.replicate 4 (⟨0x3F800000, 0⟩ : Cplx)).length = eight.m := by decide

theorem witness_HalfTransformEqualsTheRecursion :
    1 ≤ eight.log2n ∧ (List.replicate 4 (⟨0x3F800000, 0⟩ : Cplx)).length = eight.m ∧ 1 ≤ tiny.log2n := by decide

/-- A valid spectrum with a NaN in it, and a step that computes another. -/
theorem witness_StepKeepsSpectrumNansCanonical :
    let s := { holding with specValid := true, spec := [⟨0x7FC00000, 0⟩, ⟨0, 0⟩], cIn := [0x12] }
    s.CanonicalSpectrum ∧ ∃ t, step s = .next t := ⟨by intro _; decide, _, rfl⟩

/-- With a `NOP` between the two transforms. -/
theorem witness_RepeatedTransformGivesTheSameBins :
    let s := { holding with pIn := [], cIn := [0x00] }
    s.Inv ∧ s.rIn = true ∧ ∃ s' t t', exec .cFft s = .next s' ∧ Sys2Proof.core.run 1 s' = .next t ∧ exec .cFft t = .next t' ∧
      ∀ j u, j ≤ 1 → Sys2Proof.core.run j s' = .next u → u.rIn = true ∧ u.resetIn = false := by
  refine ⟨pending_inv _ _ holding_inv, rfl, _, _, _, rfl, rfl, rfl, ?_⟩
  intro j u hj h
  obtain rfl | rfl : j = 0 ∨ j = 1 := by omega
  all_goals cases h; exact ⟨rfl, rfl⟩

/-- The peak at the last bin, and a NaN at bin 0. -/
theorem witness_PeakIsTheFirstMaximum :
    peakIndex [⟨0, 0⟩, ⟨0x7FC00000, 0⟩, ⟨0x3F800000, 0⟩] 2 = 2 ∧ fIsNan (binL1 ⟨0, 0⟩) = false ∧
      fIsNan (binL1 ⟨0x7FC00000, 0⟩) = true := by decide +kernel

theorem witness_SquaredMagnitudeIsNeverNegative : fIsNan (⟨0x7FC00000, 0⟩ : Cplx).re = true := by decide

theorem witness_PacketLayout : 1 < (includedBins tiny [⟨0x3F800000, 0⟩, ⟨0, 0xBF800000⟩]).length := by decide +kernel

theorem witness_ReceiverRecoversThePacket : tiny.log2n ≤ 30 ∧ includedBins tiny [⟨0x3F800000, 0⟩, ⟨0, 0⟩] = [0] := by
  decide +kernel

theorem witness_TerminatorAppearsOnlyAtTheEnd : tiny.log2n ≤ 30 ∧ 1 ∈ includedBins tiny [⟨0, 0⟩, ⟨0x3F800000, 0⟩] := by
  decide +kernel

/-- K9, K13 and K11: a square that underflows, a NaN peak, an infinite peak. -/
theorem witness_DegeneratePeaksGiveEmptyPackets :
    peakSq [⟨0x0DA24260, 0⟩, ⟨0, 0x0DA24260⟩] tiny.m = 0x00000000 ∧
    fIsNan (peakSq [⟨0x7FC00000, 0x7FC00000⟩, ⟨0x3F800000, 0⟩] tiny.m) = true ∧
    peakSq [⟨0x7F800000, 0⟩, ⟨0x3F800000, 0⟩] tiny.m = 0x7F800000 ∧ flt 0x00000000 tiny.thresholdSq = true := by
  decide +kernel

end Sys2Proof.Tests
end

namespace Sys2Proof.Machine

/-! ## O12: a block is built from the legal configurations and from no others (spec/00_scope.md R7)

`thresholdLegal` compares the places of patterns (`fOrder`), the statement compares their values (`f32Value`). The key
fact is `f32Value_le_iff`: the two orders are the same. -/

/-- On each sign the order is that of the magnitudes; across the signs it turns on the two zeros, which share a place
and a value. -/
theorem fUnits_le_iff (a b : Word32) : fUnits a ≤ fUnits b ↔ fOrder a ≤ fOrder b := by
  have hab := magUnits_lt_iff (p := fMag a) (q := fMag b)
  have hba := magUnits_lt_iff (p := fMag b) (q := fMag a)
  have ha := magUnits_eq_zero (p := fMag a)
  have hb := magUnits_eq_zero (p := fMag b)
  unfold fUnits fOrder
  cases fSign a <;> cases fSign b <;> simp only [Bool.false_eq_true, if_true, if_false] <;> omega

/-- The comparisons of R180 order the patterns as `f32Value` does. -/
theorem f32Value_le_iff (a b : Word32) : f32Value a ≤ f32Value b ↔ fOrder a ≤ fOrder b := by
  rw [f32Value_eq, f32Value_eq, div_le_div_iff_of_pos_right (by positivity), Int.cast_le, fUnits_le_iff]

theorem f32Value_fPosZero : f32Value fPosZero = 0 := f32Value_eq_zero.2 rfl

theorem f32Value_fOne : f32Value fOne = 1 := by simp [f32Value, fOne]

theorem fge_iff (a b : Word32) :
    fge a b = true ↔ fIsNan a = false ∧ fIsNan b = false ∧ f32Value b ≤ f32Value a := by
  simp [fge, f32Value_le_iff, and_assoc]

theorem fIsNan_of_f32Finite {a : Word32} (h : f32Finite a) : fIsNan a = false :=
  decide_eq_false ((f32Finite_iff a).1 h).not_gt

/-- Infinities and NaNs have patterns whose place is above that of `1.0` or below that of the zeros. -/
theorem f32Finite_of_value_mem_unit {t : Word32} (h0 : 0 ≤ f32Value t) (h1 : f32Value t ≤ 1) : f32Finite t := by
  rw [← f32Value_fPosZero, f32Value_le_iff, show fOrder fPosZero = 0 by rfl] at h0
  rw [← f32Value_fOne, f32Value_le_iff, show fOrder fOne = 0x3F800000 by rfl] at h1
  rw [f32Finite_iff, infMag]
  unfold fOrder at h0 h1
  by_cases hs : fSign t
  · rw [if_pos hs] at h0; omega
  · rw [if_neg hs] at h1; omega

/-- A threshold passes the check of the model exactly where it is legal by its value (R6, R7). -/
theorem thresholdLegal_iff (t : Word32) :
    thresholdLegal t = true ↔ f32Finite t ∧ 0 ≤ f32Value t ∧ f32Value t ≤ 1 := by
  have hz : fIsNan fPosZero = false := rfl
  have ho : fIsNan fOne = false := rfl
  rw [thresholdLegal, Bool.and_eq_true, fge_iff, fge_iff, f32Value_fPosZero, f32Value_fOne]
  constructor
  · rintro ⟨⟨-, -, h0⟩, -, -, h1⟩
    exact ⟨f32Finite_of_value_mem_unit h0 h1, h0, h1⟩
  · rintro ⟨hf, h0, h1⟩
    exact ⟨⟨fIsNan_of_f32Finite hf, hz, h0⟩, ho, fIsNan_of_f32Finite hf, h1⟩

theorem configLegal_iff (c : Config) :
    configLegal c = true ↔ 1 ≤ c.log2n ∧ c.log2n ≤ 30 ∧ f32Finite c.thresholdSq ∧ 0 ≤ f32Value c.thresholdSq ∧
      f32Value c.thresholdSq ≤ 1 ∧ c.tw = twiddleTable c.log2n := by
  simp only [configLegal, Bool.and_eq_true, decide_eq_true_eq, thresholdLegal_iff, and_assoc]

/-- Settles O12: `State.build` branches on `configLegal`, which holds exactly of the configurations legal by R7. -/
theorem malformedConfigurationIsRefused : Obligations.MalformedConfigurationIsRefused := by
  unfold Obligations.MalformedConfigurationIsRefused
  intro c
  rw [← configLegal_iff c]
  exact ⟨fun h => if_pos h, fun h => if_neg h⟩

end Sys2Proof.Machine

namespace Sys2Proof.Machine

/-! ## O15: what no step but a reset undoes (spec/10_state.md R31, R32, R33, R39)

`Onward s t` says of two states what the statement says of a step without reset. It composes, so it is shown of taking
a word (`Taken`), of a fault and of each command, and a step is a composition of these. -/

/-- From `s` to `t` nothing sticky is lost, `OUT` has at most grown by whole 32-bit fields (spec/20_memory.md R56, R61), the
configuration is the same. -/
structure Onward (s t : State) : Prop where
  cfg : t.cfg = s.cfg
  md : s.md = true → t.md = true
  specValid : s.specValid = true → t.specValid = true
  err : s.err ≠ 0 → t.err = s.err
  out : ∃ bytes, t.out = s.out ++ bytes ∧ bytes.length % 4 = 0

theorem Onward.refl (s : State) : Onward s s := by constructor <;> simp

theorem Onward.trans {s u t : State} (hsu : Onward s u) (hut : Onward u t) : Onward s t where
  cfg := hut.cfg.trans hsu.cfg
  md := hut.md ∘ hsu.md
  specValid := hut.specValid ∘ hsu.specValid
  err h := by
    have hu := hsu.err h
    rw [hut.err (hu ▸ h), hu]
  out := by
    obtain ⟨a, ha, hla⟩ := hsu.out
    obtain ⟨b, hb, hlb⟩ := hut.out
    exact ⟨a ++ b, by rw [hb, ha, List.append_assoc], by rw [List.length_append]; omega⟩

theorem Taken.onward {p : Port} {w : Word64} {s u : State} (h : Taken p w s u) : Onward s u := by
  rw [h.frame]
  constructor <;> simp

/-- A fault writes `ERR` only while it is 0 (R223). -/
theorem raiseFault_onward (f : FaultCode) (s : State) : Onward s (raiseFault f s) := by
  constructor <;> simp +contextual

/-- Every field of a packet has four bytes (spec/20_memory.md R57): three for an entry and the terminator. -/
theorem packet_length (c : Config) (bins : List Cplx) :
    (packet c bins).length = 12 * (includedBins c bins).length + 4 := by
  rw [packet, List.length_append, emitEntries_length, emit32_length]

/-- `C.COMPRESS` appends its packet and changes nothing else that `Onward` speaks of. -/
theorem compressed_onward (r : Response) (s : State) : Onward s (respond r (appendOut (packet s.cfg s.spec) s)) where
  cfg := by simp
  md := by simp
  specValid := by simp
  err := by simp
  out := ⟨packet s.cfg s.spec, by simp, by rw [packet_length]; omega⟩

/-- A guard that faults, as every rule's checks do, is met by the fault or passed. -/
theorem onward_of_guard {c : Prop} [Decidable c] {f : FaultCode} {s t : State} {rest : Host.Outcome State Fault Refusal}
    (h : (if c then .next (raiseFault f s) else rest) = .next t) (hrest : rest = .next t → Onward s t) : Onward s t := by
  split at h
  · cases h
    exact raiseFault_onward f s
  · exact hrest h

/-- Past its guards a command writes none of the five fields but these: `P.START` sets `MD`, `C.FFT` sets `SPEC_VALID`,
`C.COMPRESS` appends to `OUT`. -/
theorem exec_onward {i : Instr} {s t : State} (h : exec i s = .next t) : Onward s t := by
  cases i with
  | nop =>
    cases h
    constructor <;> simp
  | pStart =>
    refine onward_of_guard h fun h => onward_of_guard h fun h => ?_
    cases h
    cases sameSlot s <;> constructor <;> simp
  | pPush sample =>
    refine onward_of_guard h fun h => onward_of_guard h fun h => onward_of_guard h fun h => ?_
    cases h
    constructor <;> simp
  | pStop =>
    refine onward_of_guard h fun h => onward_of_guard h fun h => onward_of_guard h fun h => ?_
    cases h
    constructor <;> simp
  | cStart =>
    refine onward_of_guard h fun h => ?_
    split at h <;> cases h <;> constructor <;> simp
  | cFft =>
    refine onward_of_guard h fun h => ?_
    cases h
    constructor <;> simp
  | cEnd =>
    refine onward_of_guard h fun h => ?_
    cases h
    constructor <;> simp
  | cCompress =>
    refine onward_of_guard h fun h => ?_
    cases h
    exact compressed_onward _ s
  | rdStatus sel =>
    simp only [exec, execRdStatus] at h
    split at h <;> cases h
    · exact raiseFault_onward _ s
    · constructor <;> simp

/-- A step without reset: the block holds, or it takes a word and then faults or runs a command. -/
theorem step_onward {s t : State} (hr : s.resetIn = false) (h : step s = .next t) : Onward s t := by
  rcases step_cases h with ⟨hr', -⟩ | ⟨-, -, -, rfl⟩ | ⟨p, w, u, -, -, htaken, ⟨f, -, rfl⟩ | ⟨i, -, hexec⟩⟩
  · simp [hr] at hr'
  · exact .refl _
  · exact htaken.onward.trans (raiseFault_onward f u)
  · exact htaken.onward.trans (exec_onward hexec)

/-- Reset restores every field but the configuration, which is no state (R39). -/
theorem step_cfg {s t : State} (h : step s = .next t) : t.cfg = s.cfg := by
  cases hr : s.resetIn with
  | false => exact (step_onward hr h).cfg
  | true =>
    rw [step, if_pos hr] at h
    cases h
    rfl

/-- Settles O15: a step is a reset, which keeps the configuration, or goes onward. -/
theorem stickyStateAndAppendOnlyOutput : Obligations.StickyStateAndAppendOnlyOutput := by
  unfold Obligations.StickyStateAndAppendOnlyOutput
  intro s t h
  refine ⟨step_cfg h, fun hr => ?_⟩
  obtain ⟨-, hmd, hspec, herr, hout⟩ := step_onward hr h
  exact ⟨hmd, hspec, herr, hout⟩

/-! ## O6: a step runs the decoded command of the port that goes next (R21, R110) -/

theorem step_of_arrival {s t : State} {p : Port} {w : Word64} (hr : s.resetIn = false)
    (h : arrival s = .command p w t) : step s = runCommand p w t := by
  simp [step, hr, h]

theorem runCommand_of_decode {p : Port} {w : Word64} {i : Instr} (h : decode p w = .ok i) (s : State) :
    runCommand p w s = exec i s := by
  simp [runCommand, h]

/-- With port C empty, port P goes next. -/
theorem arrival_of_cIn_nil {s : State} (h : s.cIn = []) : arrival s = takeP s := by simp [arrival, h]

/-- With port P alone empty, port C goes next. -/
theorem arrival_of_pIn_nil {s : State} (hp : s.pIn = []) (hc : s.cIn ≠ []) : arrival s = takeC s := by
  simp [arrival, hp, hc]

/-- Settles O6: `step` runs what `arrival` takes, and a port alone with a word pending has its oldest word taken. -/
theorem stepRunsTheDecodedCommand : Obligations.StepRunsTheDecodedCommand := by
  unfold Obligations.StepRunsTheDecodedCommand
  refine ⟨fun s p w t hr ha => step_of_arrival hr ha, fun s p w t i hr ha hd => ?_, fun s w ws hp hc => ?_,
    fun s w ws hp hc => ?_⟩
  · rw [step_of_arrival hr ha, runCommand_of_decode hd]
  · rw [arrival_of_cIn_nil hc, takeP_cons hp]
  · rw [arrival_of_pIn_nil hp (by simp [hc]), takeC_cons hc]

end Sys2Proof.Machine

namespace Sys2Proof.Machine

/-! ## O8: every command completes in one step (spec/20_memory.md R73) -/

/-- A step resets, holds, or runs one command word, and each of the three gives a next state. -/
theorem step_next (s : State) : ∃ t, step s = .next t := by
  cases hr : s.resetIn with
  | true => exact ⟨_, if_pos hr⟩
  | false =>
    rcases arrival_cases s with ⟨-, -, hidle⟩ | ⟨p, w, u, hcommand, -⟩
    · exact ⟨s, by simp [step, hr, hidle]⟩
    · obtain ⟨r, v, hrun, -⟩ := runCommand_answers p w u
      exact ⟨_, (step_of_arrival hr hcommand).trans hrun⟩

/-- Settles O8: a command ends in its response, on every path (`exec_answers`), and so does a step (`step_next`). -/
theorem everyCommandCompletesInOneStep : Obligations.EveryCommandCompletesInOneStep := by
  unfold Obligations.EveryCommandCompletesInOneStep
  refine ⟨fun i s => ?_, step_next⟩
  obtain ⟨r, u, hexec, -⟩ := exec_answers i s
  exact ⟨_, hexec⟩

/-! ## O19: which elements of the slots a command changes (R51, R62)

`storedBy` is the store of a command on the slots, apart from everything else that the command does; `exec_slots` ties it
to `exec`, once for all commands, and the statement is read off it by the laws of `slotWrite` and `clearSlot`. -/

/-- A guard that faults, as every rule's checks do, is met by the fault or passed. -/
theorem guard_cases {c : Prop} [Decidable c] {f : FaultCode} {s t : State} {rest : Host.Outcome State Fault Refusal}
    (h : (if c then .next (raiseFault f s) else rest) = .next t) : (c ∧ t = raiseFault f s) ∨ (¬c ∧ rest = .next t) := by
  split at h
  · cases h
    exact .inl ⟨‹c›, rfl⟩
  · exact .inr ⟨‹¬c›, h⟩

/-- A property of the state that every fault gives and the rest of the rule gives, the command gives. -/
theorem of_guard {P : State → Prop} {c : Prop} [Decidable c] {f : FaultCode} {s t : State}
    {rest : Host.Outcome State Fault Refusal} (hfault : ∀ f, P (raiseFault f s))
    (h : (if c then .next (raiseFault f s) else rest) = .next t) (hrest : ¬c → rest = .next t → P t) : P t := by
  rcases guard_cases h with ⟨-, rfl⟩ | ⟨hc, h⟩
  · exact hfault f
  · exact hrest hc h

/-- `t` has the slots of `s`. -/
structure SameSlots (s t : State) : Prop where
  slot0 : t.slot0 = s.slot0
  slot1 : t.slot1 = s.slot1

theorem SameSlots.slotOf {s t : State} (h : SameSlots s t) (x : Slot) : slotOf t x = slotOf s x := by
  cases x
  · exact h.slot0
  · exact h.slot1

theorem raiseFault_sameSlots (s : State) (f : FaultCode) : SameSlots s (raiseFault f s) := ⟨by simp, by simp⟩

theorem clearSlot_slot0 (x : Slot) (s : State) :
    (clearSlot x s).slot0 = if x = .s0 then List.replicate s.cfg.n cZero else s.slot0 := by
  cases x <;> rfl

theorem clearSlot_slot1 (x : Slot) (s : State) :
    (clearSlot x s).slot1 = if x = .s1 then List.replicate s.cfg.n cZero else s.slot1 := by
  cases x <;> rfl

/-- The slots after command `i`, as a state: a `P.PUSH` that stores writes the sample (R116), a `P.START` that detects no
Missed Deadline clears the write slot (R114), and nothing else writes a slot. -/
def storedBy (i : Instr) (s : State) : State :=
  match i with
  | .pPush v => if s.md = false ∧ s.wIn = true ∧ s.fill ≠ s.cfg.n then slotWrite s.active s.fill (sampleElement v) s else s
  | .pStart => if s.md = false ∧ s.wIn = false ∧ sameSlot s = false then clearSlot s.active s else s
  | .nop | .pStop | .cStart | .cFft | .cEnd | .cCompress | .rdStatus _ => s

/-- Every command leaves the slots as `storedBy` says. -/
theorem exec_slots {i : Instr} {s t : State} (h : exec i s = .next t) : SameSlots (storedBy i s) t := by
  cases i with
  | nop =>
    cases h
    exact ⟨by simp [storedBy], by simp [storedBy]⟩
  | pStart =>
    rcases guard_cases h with ⟨hmd, rfl⟩ | ⟨hmd, h⟩
    · simpa [storedBy, hmd] using raiseFault_sameSlots s _
    rcases guard_cases h with ⟨hw, rfl⟩ | ⟨hw, h⟩
    · simpa [storedBy, hw] using raiseFault_sameSlots s _
    cases h
    cases hsame : sameSlot s
    · have hstored : storedBy .pStart s = clearSlot s.active s := if_pos ⟨by simpa using hmd, by simpa using hw, hsame⟩
      rw [hstored]
      exact ⟨by simp [clearSlot_slot0], by simp [clearSlot_slot1]⟩
    · have hstored : storedBy .pStart s = s := if_neg (by simp [hsame])
      rw [hstored]
      exact ⟨by simp, by simp⟩
  | pPush v =>
    rcases guard_cases h with ⟨hmd, rfl⟩ | ⟨hmd, h⟩
    · simpa [storedBy, hmd] using raiseFault_sameSlots s _
    rcases guard_cases h with ⟨hw, rfl⟩ | ⟨hw, h⟩
    · have hout : s.wIn = false := by simpa using hw
      simpa [storedBy, hout] using raiseFault_sameSlots s _
    rcases guard_cases h with ⟨hfill, rfl⟩ | ⟨hfill, h⟩
    · simpa [storedBy, hfill] using raiseFault_sameSlots s _
    cases h
    have hstored : storedBy (.pPush v) s = slotWrite s.active s.fill (sampleElement v) s :=
      if_pos ⟨by simpa using hmd, by simpa using hw, hfill⟩
    rw [hstored]
    exact ⟨by simp, by simp⟩
  | pStop =>
    refine of_guard (raiseFault_sameSlots s) h fun _ h => ?_
    refine of_guard (raiseFault_sameSlots s) h fun _ h => ?_
    refine of_guard (raiseFault_sameSlots s) h fun _ h => ?_
    cases h
    exact ⟨by simp [storedBy], by simp [storedBy]⟩
  | cStart =>
    refine of_guard (raiseFault_sameSlots s) h fun _ h => ?_
    split at h <;> cases h <;> exact ⟨by simp [storedBy], by simp [storedBy]⟩
  | cFft =>
    refine of_guard (raiseFault_sameSlots s) h fun _ h => ?_
    cases h
    exact ⟨by simp [storedBy], by simp [storedBy]⟩
  | cEnd =>
    refine of_guard (raiseFault_sameSlots s) h fun _ h => ?_
    cases h
    exact ⟨by simp [storedBy], by simp [storedBy]⟩
  | cCompress =>
    refine of_guard (raiseFault_sameSlots s) h fun _ h => ?_
    cases h
    exact ⟨by simp [storedBy], by simp [storedBy]⟩
  | rdStatus sel =>
    simp only [exec, execRdStatus] at h
    split at h <;> cases h
    · exact raiseFault_sameSlots s _
    · exact ⟨by simp [storedBy], by simp [storedBy]⟩

/-- The storing commands write the write slot alone (R62). -/
theorem slotOf_storedBy_other {s : State} {x : Slot} (hx : x ≠ s.active) (i : Instr) :
    slotOf (storedBy i s) x = slotOf s x := by
  cases i with
  | pPush v =>
    rw [storedBy]
    split
    · exact slotOf_setSlot_other hx _ s
    · rfl
  | pStart =>
    rw [storedBy]
    split
    · exact slotOf_setSlot_other hx _ s
    · rfl
  | nop | pStop | cStart | cFft | cEnd | cCompress | rdStatus _ => rfl

/-- Outside a Missed Deadline and the write section, `P.START` detects a Missed Deadline by `sameSlot` (R115). -/
theorem pStart_md {s t : State} (hmd : s.md = false) (hw : s.wIn = false) (h : exec .pStart s = .next t) :
    t.md = sameSlot s := by
  rcases guard_cases h with ⟨hmd', -⟩ | ⟨-, h⟩
  · simp [hmd] at hmd'
  rcases guard_cases h with ⟨hw', -⟩ | ⟨-, h⟩
  · simp [hw] at hw'
  cases h
  cases sameSlot s <;> simp [hmd]

theorem slotOf_length {s : State} (hs : s.Sized) (x : Slot) : (slotOf s x).length = s.cfg.n := by
  cases x
  · exact hs.slot0_length
  · exact hs.slot1_length

/-- A `SlotWrite` inside the slot, read at any place of the two slots. -/
theorem slotRead_slotWrite {s : State} {y : Slot} {j : Nat} (hj : j < (slotOf s y).length) (e : Cplx) (x : Slot) (k : Nat) :
    slotRead (slotWrite y j e s) x k = if x = y ∧ k = j then e else slotRead s x k := by
  by_cases hx : x = y
  · subst hx
    by_cases hk : k = j
    · subst hk
      simpa using slotRead_slotWrite_same hj e
    · simpa [hk] using slotRead_slotWrite_other_index hk x e s
  · simpa [hx] using slotRead_slotWrite_other_slot hx j k e s

/-- A cleared slot, read at any place of the two slots. -/
theorem slotRead_clearSlot (y : Slot) (s : State) (x : Slot) (k : Nat) :
    slotRead (clearSlot y s) x k = if x = y then cZero else slotRead s x k := by
  by_cases hx : x = y
  · subst hx
    simpa using slotRead_clearSlot_same x k s
  · simpa [hx] using slotRead_clearSlot_other hx k s

/-- Settles O19: the slots are left as `storedBy` says, and its two stores are read by `slotRead_slotWrite` and
`slotRead_clearSlot`. -/
theorem slotElementsChangeOnlyWhereStored : Obligations.SlotElementsChangeOnlyWhereStored := by
  unfold Obligations.SlotElementsChangeOnlyWhereStored
  intro i s t x k hs h
  have hstored : slotRead t x k = slotRead (storedBy i s) x k := by rw [slotRead, slotRead, (exec_slots h).slotOf x]
  rw [hstored]
  cases i with
  | pPush v =>
    by_cases hpush : s.md = false ∧ s.wIn = true ∧ s.fill ≠ s.cfg.n
    · have hfill : s.fill < (slotOf s s.active).length := by
        rw [slotOf_length hs]
        exact hs.fill_le.lt_of_ne hpush.2.2
      simp [storedBy, hpush, slotRead_slotWrite hfill, sampleElement, fPosZero]
    · have hstay : storedBy (.pPush v) s = s := if_neg hpush
      rw [hstay]
      exact (if_neg fun ⟨hmd, hw, hfill, _⟩ => hpush ⟨hmd, hw, hfill⟩).symm
  | pStart =>
    by_cases hin : s.md = false ∧ s.wIn = false
    · have hmd := pStart_md hin.1 hin.2 h
      cases hsame : sameSlot s <;> simp [storedBy, hin, hmd, hsame, slotRead_clearSlot, cZero, fPosZero]
    · have hstay : storedBy .pStart s = s := if_neg fun ⟨hmd, hw, _⟩ => hin ⟨hmd, hw⟩
      rw [hstay]
      exact (if_neg fun ⟨hmd, hw, _⟩ => hin ⟨hmd, hw⟩).symm
  | nop | pStop | cStart | cFft | cEnd | cCompress | rdStatus _ => rfl

end Sys2Proof.Machine

namespace Sys2Proof.Machine

/-! ## O54: the window of a hold stays until the hold ends (R65, R124, R160)

`C.FFT` writes `realFft` of the configuration and the held slot, so it is enough that every step of a hold keeps both
(`HoldKept`). The held slot stays the read slot because the producer's publish leaves the consumer inside and so never
flips: this needs of the invariant only the count of R120 (`Holding`). -/

/-- The consumer holds a read, and `CONCURRENT` counts it and the producer (R120). -/
structure Holding (s : State) : Prop where
  held : s.rIn = true
  counted : s.concurrent = if s.wIn = true then 2 else 1

/-- From `s` to `t` the hold goes on and the slots keep their roles. -/
structure RolesKept (s t : State) : Prop where
  holding : Holding t
  active : t.active = s.active

/-- From `s` to `t` the hold goes on: the same slot is the read slot, with the same elements, under the same
configuration. -/
structure HoldKept (s t : State) : Prop extends RolesKept s t where
  cfg : t.cfg = s.cfg
  window : slotOf t (readSlot s) = slotOf s (readSlot s)

theorem HoldKept.refl {s : State} (hs : Holding s) : HoldKept s s := ⟨⟨hs, rfl⟩, rfl, rfl⟩

theorem HoldKept.readSlot {s t : State} (h : HoldKept s t) : readSlot t = readSlot s := congrArg otherSlot h.active

theorem HoldKept.trans {s u t : State} (hsu : HoldKept s u) (hut : HoldKept u t) : HoldKept s t where
  holding := hut.holding
  cfg := hut.cfg.trans hsu.cfg
  active := hut.active.trans hsu.active
  window := by rw [← hsu.window, ← hsu.readSlot, hut.window]

theorem State.Inv.holding {s : State} (hs : s.Inv) (hr : s.rIn = true) : Holding s where
  held := hr
  counted := by
    rw [concurrent_of_inv hs, hr]
    cases s.wIn <;> rfl

theorem raiseFault_holdKept (f : FaultCode) {s : State} (hs : Holding s) : HoldKept s (raiseFault f s) := by
  obtain ⟨hr, hc⟩ := hs
  exact ⟨⟨⟨by simpa, by simpa⟩, by simp⟩, by simp, by simp⟩

theorem Taken.holdKept {p : Port} {w : Word64} {s u : State} (h : Taken p w s u) (hs : Holding s) : HoldKept s u := by
  rw [h.frame]
  exact ⟨⟨⟨hs.held, hs.counted⟩, rfl⟩, rfl, SameSlots.slotOf ⟨rfl, rfl⟩ _⟩

/-- In a hold a command ends the hold, or keeps the count of the agents inside and the roles of the slots: `P.START` enters
beside the consumer, and `P.STOP` leaves the consumer inside, so it does not flip. -/
theorem exec_rolesKept {i : Instr} {s t : State} (hs : Holding s) (h : exec i s = .next t) (ht : t.rIn = true) :
    RolesKept s t := by
  have hfault : ∀ f, RolesKept s (raiseFault f s) := fun f => (raiseFault_holdKept f hs).toRolesKept
  obtain ⟨hr, hc⟩ := hs
  cases i with
  | nop =>
    cases h
    exact ⟨⟨by simpa, by simpa⟩, by simp⟩
  | pStart =>
    refine of_guard hfault h fun _ h => ?_
    refine of_guard hfault h fun hw h => ?_
    cases h
    cases sameSlot s <;> exact ⟨⟨by simpa, by simp [hc, hw]⟩, by simp⟩
  | pPush v =>
    refine of_guard hfault h fun _ h => ?_
    refine of_guard hfault h fun _ h => ?_
    refine of_guard hfault h fun _ h => ?_
    cases h
    exact ⟨⟨by simpa, by simpa⟩, by simp⟩
  | pStop =>
    refine of_guard hfault h fun _ h => ?_
    refine of_guard hfault h fun hw h => ?_
    refine of_guard hfault h fun _ h => ?_
    cases h
    have hc2 : s.concurrent = 2 := by simpa [show s.wIn = true by simpa using hw] using hc
    rcases exitSection_cases { setFull s.active true s with wIn := false, lastWValid := true, lastW := s.active } with
      ⟨hlast, -⟩ | ⟨-, hexit⟩
    · simp [hc2] at hlast
    · simp only [hexit]
      exact ⟨⟨by simpa, by simp [hc2]⟩, by simp⟩
  | cStart => exact of_guard hfault h fun hout _ => absurd hr hout
  | cFft =>
    refine of_guard hfault h fun _ h => ?_
    cases h
    exact ⟨⟨by simpa, by simpa⟩, by simp⟩
  | cEnd =>
    refine of_guard hfault h fun _ h => ?_
    cases h
    simp at ht
  | cCompress =>
    refine of_guard hfault h fun _ h => ?_
    cases h
    exact ⟨⟨by simpa, by simpa⟩, by simp⟩
  | rdStatus sel =>
    simp only [exec, execRdStatus] at h
    split at h <;> cases h
    · exact hfault _
    · exact ⟨⟨by simpa, by simpa⟩, by simp⟩

/-- The held slot is not the write slot, and no command writes into any other than that (`slotOf_storedBy_other`). -/
theorem exec_holdKept {i : Instr} {s t : State} (hs : Holding s) (h : exec i s = .next t) (ht : t.rIn = true) :
    HoldKept s t where
  toRolesKept := exec_rolesKept hs h ht
  cfg := (exec_onward h).cfg
  window := ((exec_slots h).slotOf _).trans (slotOf_storedBy_other (otherSlot_ne s.active) i)

theorem step_holdKept {s t : State} (hs : Holding s) (hreset : s.resetIn = false) (h : step s = .next t)
    (ht : t.rIn = true) : HoldKept s t := by
  rcases step_cases h with ⟨hreset', -⟩ | ⟨-, -, -, rfl⟩ | ⟨p, w, u, -, -, htaken, ⟨f, -, rfl⟩ | ⟨i, -, hexec⟩⟩
  · simp [hreset] at hreset'
  · exact .refl hs
  · exact (htaken.holdKept hs).trans (raiseFault_holdKept f (htaken.holdKept hs).holding)
  · exact (htaken.holdKept hs).trans (exec_holdKept (htaken.holdKept hs).holding hexec ht)

theorem run_succ_of_step {s u : State} (h : step s = .next u) (k : Nat) :
    Sys2Proof.core.run (k + 1) s = Sys2Proof.core.run k u := by
  have hstep : Sys2Proof.core.step s = .next u := h
  simp only [Host.Core.run, hstep]

/-- A run all of whose states lie in the hold keeps it. -/
theorem run_holdKept {k : Nat} {s t : State} (hs : Holding s)
    (hhold : ∀ j u, j ≤ k → Sys2Proof.core.run j s = .next u → u.rIn = true ∧ u.resetIn = false)
    (h : Sys2Proof.core.run k s = .next t) : HoldKept s t := by
  induction k generalizing s with
  | zero =>
    cases h
    exact .refl hs
  | succ k ih =>
    obtain ⟨u, hstep⟩ := step_next s
    have hrest : ∀ j v, j ≤ k → Sys2Proof.core.run j u = .next v → v.rIn = true ∧ v.resetIn = false := fun j v hj hv =>
      hhold (j + 1) v (Nat.succ_le_succ hj) ((run_succ_of_step hstep j).trans hv)
    have hfirst : HoldKept s u :=
      step_holdKept hs (hhold 0 s (Nat.zero_le _) rfl).2 hstep (hrest 0 u (Nat.zero_le _) rfl).1
    exact hfirst.trans (ih hfirst.holding hrest ((run_succ_of_step hstep k).symm.trans h))

/-- In a hold `C.FFT` writes the transform of the held slot (R160). -/
theorem cFft_spec {s t : State} (hr : s.rIn = true) (h : exec .cFft s = .next t) :
    t.spec = realFft s.cfg (slotOf s (readSlot s)) := by
  rcases guard_cases h with ⟨hout, -⟩ | ⟨-, h⟩
  · simp [hr] at hout
  · cases h
    simp [writeSpectrum]

/-- Settles O54: the first transform and the run behind it keep the hold, so the second transform has the same input. -/
theorem repeatedTransformGivesTheSameBins : Obligations.RepeatedTransformGivesTheSameBins := by
  unfold Obligations.RepeatedTransformGivesTheSameBins
  intro k s t s' t' hinv hfirst hr hhold hrun hsecond
  have hkept' : HoldKept s s' := exec_holdKept (hinv.holding hr) hfirst (hhold 0 s' (Nat.zero_le k) rfl).1
  have hkept : HoldKept s t := hkept'.trans (run_holdKept hkept'.holding hhold hrun)
  rw [cFft_spec hr hfirst, cFft_spec hkept.holding.held hsecond, hkept.cfg, hkept.readSlot, hkept.window]

end Sys2Proof.Machine

namespace Sys2Proof

/-! ## O1, O2, O3: a command and its word (spec/30_encoding.md R80 to R86)

The key fact is `eq_encode_of_fields`: a word is given by the numbers of its three fields. So an accepted word is the
`encode` of its command (O2), and a word with the fields of a command is decoded as that command's own word is (O3). -/

/-- The shape of a command's word, put together from the lemmas for each command. -/
theorem encodeShape (i : Instr) : Laws.EncodeShape.Statement i := by
  cases i with
  | nop => exact Laws.EncodeShape.nop
  | pStart => exact Laws.EncodeShape.pStart
  | pPush sample => exact Laws.EncodeShape.pPush sample
  | pStop => exact Laws.EncodeShape.pStop
  | cStart => exact Laws.EncodeShape.cStart
  | cFft => exact Laws.EncodeShape.cFft
  | cEnd => exact Laws.EncodeShape.cEnd
  | cCompress => exact Laws.EncodeShape.cCompress
  | rdStatus sel => exact Laws.EncodeShape.rdStatus sel

/-- The converse of `decodeWord_ok`: a word that passes the three checks is accepted. -/
theorem decodeWord_of_checks {w : Word64} {i : Instr} (hselect : selectCommand (opcField w) (operandField w) = some i)
    (hrsv : rsvField w = 0) (hoperand : takesOperand i = false → operandField w = 0) : decodeWord w = .ok i := by
  simp only [decodeWord, hselect]
  rw [if_neg (not_not.2 hrsv), if_neg fun ⟨hnone, hne⟩ => hne (hoperand hnone)]

/-- The port check comes last (R86). -/
theorem decode_of_decodeWord {w : Word64} {i : Instr} (h : decodeWord w = .ok i) (p : Port) :
    decode p w = if i.acceptedOn p = true then .ok i else .error .wrongPort := by
  simp only [decode, h]

theorem decodeWord_encode (i : Instr) : decodeWord (encode i) = .ok i := by
  obtain ⟨hselect, hrsv, hoperand, -⟩ := encodeShape i
  exact decodeWord_of_checks (by rwa [opcField_encode, operandField_encode]) hrsv hoperand

theorem decode_encode (p : Port) (i : Instr) :
    decode p (encode i) = if i.acceptedOn p = true then .ok i else .error .wrongPort :=
  decode_of_decodeWord (decodeWord_encode i) p

/-- Settles O1: a command's word has the command's opcode and operand and no reserved bit, so it passes every check. -/
theorem decodeOfEncodeIsTheCommand : Obligations.DecodeOfEncodeIsTheCommand := by
  unfold Obligations.DecodeOfEncodeIsTheCommand
  intro i
  exact ⟨decodeWord_encode i, fun p hp => (decode_encode p i).trans (if_pos hp)⟩

/-- A word is the command's word where its fields are the numbers of the command's (R80). -/
theorem eq_encode_of_fields {w : Word64} {i : Instr} (hopc : w.toNat % 256 = (opcOf i).toNat)
    (hrsv : w.toNat / 256 % 2 ^ 24 = 0) (hoperand : w.toNat / 2 ^ 32 = (operandOf i).toNat) : w = encode i := by
  apply BitVec.eq_of_toNat_eq
  rw [word_toNat_fields, encode_toNat, opcField_toNat, rsvField_toNat, operandField_toNat, hopc, hrsv, hoperand]
  omega

/-- The operand of an accepted word is that of its command, which is 0 where the command takes none (R83). -/
theorem operandField_of_decodeWord {w : Word64} {i : Instr} (h : decodeWord w = .ok i) : operandField w = operandOf i := by
  obtain ⟨hselect, -, hnone⟩ := decodeWord_ok h
  obtain ⟨-, htaken, hzero⟩ := selectCommand_some hselect
  cases htakes : takesOperand i with
  | false => rw [hnone htakes, hzero htakes]
  | true => rw [htaken htakes]

/-- An accepted word is the word of the command it decodes to. -/
theorem eq_encode_of_decodeWord {w : Word64} {i : Instr} (h : decodeWord w = .ok i) : w = encode i := by
  obtain ⟨hselect, hrsv, -⟩ := decodeWord_ok h
  obtain ⟨hopc, -, -⟩ := selectCommand_some hselect
  refine eq_encode_of_fields ?_ ?_ ?_
  · rw [← opcField_toNat, hopc]
  · rw [← rsvField_toNat, hrsv]; rfl
  · rw [← operandField_toNat, operandField_of_decodeWord h]

/-- Settles O2: the three fields of an accepted word are those of its command, and the port check has passed. -/
theorem encodeOfDecodeIsTheWord : Obligations.EncodeOfDecodeIsTheWord := by
  unfold Obligations.EncodeOfDecodeIsTheWord
  intro p w i h
  obtain ⟨hword, haccepted⟩ := decode_ok h
  exact ⟨(eq_encode_of_decodeWord hword).symm, haccepted⟩

/-- The nine opcodes of the map (R84). -/
theorem opcOf_mem (i : Instr) : (opcOf i).toNat ∈ [0x00, 0x01, 0x02, 0x03, 0x11, 0x12, 0x13, 0x14, 0x20] := by
  cases i <;> simp [opcOf]

/-- Each of the nine opcodes belongs to a command. -/
theorem exists_opcOf : ∀ k ∈ [0x00, 0x01, 0x02, 0x03, 0x11, 0x12, 0x13, 0x14, 0x20], ∃ i, k = (opcOf i).toNat := by
  simp only [List.forall_mem_cons]
  exact ⟨⟨.nop, rfl⟩, ⟨.pStart, rfl⟩, ⟨.pPush 0, rfl⟩, ⟨.pStop, rfl⟩, ⟨.cStart, rfl⟩, ⟨.cFft, rfl⟩, ⟨.cEnd, rfl⟩,
    ⟨.cCompress, rfl⟩, ⟨.rdStatus 0, rfl⟩, by simp⟩

/-- Seven of them belong to commands that take no operand (R83). -/
theorem exists_opcOf_no_operand :
    ∀ k ∈ [0x00, 0x01, 0x03, 0x11, 0x12, 0x13, 0x14], ∃ i, k = (opcOf i).toNat ∧ takesOperand i = false := by
  simp only [List.forall_mem_cons]
  exact ⟨⟨.nop, rfl, rfl⟩, ⟨.pStart, rfl, rfl⟩, ⟨.pStop, rfl, rfl⟩, ⟨.cStart, rfl, rfl⟩, ⟨.cFft, rfl, rfl⟩,
    ⟨.cEnd, rfl, rfl⟩, ⟨.cCompress, rfl, rfl⟩, by simp⟩

/-- Whether a selected command takes an operand is fixed by its opcode. -/
theorem selectCommand_opcOf (i : Instr) (x : Word32) :
    ∃ j, selectCommand (opcOf i) x = some j ∧ takesOperand j = takesOperand i := by
  cases i <;> exact ⟨_, rfl, rfl⟩

/-- The first check of R86: no command has the word's opcode. -/
theorem decode_illegalOpcode {w : Word64} (h : ∀ i, opcOf i ≠ opcField w) (p : Port) :
    decode p w = .error .illegalOpcode := by
  cases hselect : selectCommand (opcField w) (operandField w) with
  | none => simp only [decode, decodeWord, hselect]
  | some i => exact absurd (selectCommand_some hselect).1 (h i)

/-- The second and third checks of R86: a reserved bit, or an operand that the command does not take. -/
theorem decode_reservedNonzero {w : Word64} {i : Instr} (hopc : opcField w = opcOf i)
    (h : rsvField w ≠ 0 ∨ takesOperand i = false ∧ operandField w ≠ 0) (p : Port) :
    decode p w = .error .reservedNonzero := by
  obtain ⟨j, hselect, htakes⟩ := selectCommand_opcOf i (operandField w)
  have hword : decodeWord w = .error .reservedNonzero := by
    simp only [decodeWord, hopc, hselect, htakes]
    split
    · rfl
    · exact if_pos (h.resolve_left ‹_›)
  simp only [decode, hword]

/-- The last check of R86, of a word that has the fields of a command. -/
theorem decode_of_fields {w : Word64} (i : Instr) (hopc : w.toNat % 256 = (opcOf i).toNat)
    (hrsv : w.toNat / 256 % 2 ^ 24 = 0) (hoperand : w.toNat / 2 ^ 32 = (operandOf i).toNat) (p : Port) :
    decode p w = if i.acceptedOn p = true then .ok i else .error .wrongPort := by
  rw [eq_encode_of_fields hopc hrsv hoperand, decode_encode]

/-- The operand of a word fits its field. -/
theorem toNat_ofNat_operand (w : Word64) : w.toNat / 2 ^ 32 = (BitVec.ofNat 32 (w.toNat / 2 ^ 32)).toNat := by
  rw [← operandField_toNat, BitVec.ofNat_toNat, BitVec.setWidth_eq]

theorem opcField_eq_opcOf {w : Word64} {i : Instr} (h : w.toNat % 256 = (opcOf i).toNat) : opcField w = opcOf i :=
  BitVec.eq_of_toNat_eq ((opcField_toNat w).trans h)

theorem rsvField_ne_zero {w : Word64} (h : w.toNat / 256 % 2 ^ 24 ≠ 0) : rsvField w ≠ 0 :=
  fun hzero => h (by rw [← rsvField_toNat, hzero]; rfl)

theorem operandField_ne_zero {w : Word64} (h : w.toNat / 2 ^ 32 ≠ 0) : operandField w ≠ 0 :=
  fun hzero => h (by rw [← operandField_toNat, hzero]; rfl)

/-- Settles O3: a word whose opcode is reserved, or with a bit set that must be 0, is refused by the fields at once; any
other word is the word of a command, and the port alone decides. -/
theorem decodeRunsTheChecksInOrder : Obligations.DecodeRunsTheChecksInOrder := by
  unfold Obligations.DecodeRunsTheChecksInOrder
  intro p w
  refine ⟨fun ho => ?_, fun ho hr => ?_, fun ho _ hx => ?_, fun ho hr hx hp => ?_, fun ho hr hx hp => ?_,
    fun ho hr hx => decode_of_fields .nop ho hr hx p, fun ho hr hx hp => hp ▸ decode_of_fields .pStart ho hr hx p,
    fun ho hr hp => hp ▸ decode_of_fields (.pPush _) ho hr (toNat_ofNat_operand w) p,
    fun ho hr hx hp => hp ▸ decode_of_fields .pStop ho hr hx p, fun ho hr hx hp => hp ▸ decode_of_fields .cStart ho hr hx p,
    fun ho hr hx hp => hp ▸ decode_of_fields .cFft ho hr hx p, fun ho hr hx hp => hp ▸ decode_of_fields .cEnd ho hr hx p,
    fun ho hr hx hp => hp ▸ decode_of_fields .cCompress ho hr hx p,
    fun ho hr => decode_of_fields (.rdStatus _) ho hr (toNat_ofNat_operand w) p⟩
  · exact decode_illegalOpcode (fun i hi => ho (by rw [← opcField_toNat, ← hi]; exact opcOf_mem i)) p
  · obtain ⟨i, hi⟩ := exists_opcOf _ ho
    exact decode_reservedNonzero (opcField_eq_opcOf hi) (.inl (rsvField_ne_zero hr)) p
  · obtain ⟨i, hi, htakes⟩ := exists_opcOf_no_operand _ ho
    exact decode_reservedNonzero (opcField_eq_opcOf hi) (.inr ⟨htakes, operandField_ne_zero hx⟩) p
  · subst hp
    simp only [List.mem_cons, List.not_mem_nil, or_false] at ho
    rcases ho with ho | ho | ho
    · exact decode_of_fields .pStart ho hr (hx.resolve_right (by omega)) .portC
    · exact decode_of_fields (.pPush _) ho hr (toNat_ofNat_operand w) .portC
    · exact decode_of_fields .pStop ho hr (hx.resolve_right (by omega)) .portC
  · subst hp
    simp only [List.mem_cons, List.not_mem_nil, or_false] at ho
    rcases ho with ho | ho | ho | ho
    · exact decode_of_fields .cStart ho hr hx .portP
    · exact decode_of_fields .cFft ho hr hx .portP
    · exact decode_of_fields .cEnd ho hr hx .portP
    · exact decode_of_fields .cCompress ho hr hx .portP

/-! ## O4: the example words (R95) -/

/-- Settles O4: each word is the `encode` of its command, on a port that accepts it. -/
theorem exampleWordsDecode : Obligations.ExampleWordsDecode := by
  unfold Obligations.ExampleWordsDecode
  exact ⟨decode_encode _ .nop, decode_encode _ .pStart, decode_encode _ (.pPush 0x3F800000),
    decode_encode _ (.pPush 0xBF000000), decode_encode _ (.pPush 0x7FC00001), decode_encode _ .pStop,
    decode_encode _ .cStart, decode_encode _ .cFft, decode_encode _ .cEnd, decode_encode _ .cCompress,
    decode_encode _ (.rdStatus 1), decode_encode _ (.rdStatus 3)⟩

end Sys2Proof

namespace Sys2Proof.Machine

/-! ## O5: the response word (spec/30_encoding.md R88) and the fault codes (spec/60_exceptions.md R221) -/

theorem flagBit_toNat (b : Bool) : (flagBit b).toNat = b.toNat := BitVec.toNat_ofBool b

/-- Settles O5: the word is a concatenation, each part weighted by the widths of the parts below it. -/
theorem responseWordLayoutAndFaultCodes : Obligations.ResponseWordLayoutAndFaultCodes := by
  unfold Obligations.ResponseWordLayoutAndFaultCodes
  refine ⟨fun r => ?_, rfl, rfl, rfl, rfl, rfl, rfl, rfl, rfl, rfl, rfl, rfl, rfl⟩
  refine (toNat_append_eq (n := 63) _ (flagBit r.ok)).trans ?_
  simp only [toNat_append_eq, flagBit_toNat, BitVec.ofNat_eq_ofNat, BitVec.toNat_zero]
  ring

/-! ## O9: one command, one response (spec/10_state.md R21, spec/30_encoding.md R88) -/

theorem PortsKept.pendingOn {s u : State} (h : PortsKept s u) (q : Port) : pendingOn u q = pendingOn s q := by
  cases q
  · exact h.pIn
  · exact h.cIn

theorem PortsKept.responsesOn {s u : State} (h : PortsKept s u) (q : Port) : responsesOn u q = responsesOn s q := by
  cases q
  · exact h.pResp
  · exact h.cResp

theorem Taken.cur {p : Port} {w : Word64} {s u : State} (h : Taken p w s u) : u.cur = p := by rw [h.frame]

/-- Taking a command answers nothing. -/
theorem Taken.responsesOn {p : Port} {w : Word64} {s u : State} (h : Taken p w s u) (q : Port) :
    responsesOn u q = responsesOn s q := by
  rw [h.frame]
  cases q <;> rfl

/-- Settles O9: the step takes a word from one port (`Taken`) and its command responds once on that port
(`runCommand_answers`). -/
theorem oneResponsePerCommandInPortOrder : Obligations.OneResponsePerCommandInPortOrder := by
  unfold Obligations.OneResponsePerCommandInPortOrder
  intro s t hreset h
  rcases arrival_cases s with ⟨hp, hc, hidle⟩ | ⟨p, w, u, hcommand, htaken⟩
  · have hstay : step s = .next s := by simp [step, hreset, hidle]
    rw [hstay] at h
    cases h
    exact .inl ⟨hp, hc, rfl⟩
  · obtain ⟨r, v, hrun, hkept⟩ := runCommand_answers p w u
    rw [step_of_arrival hreset hcommand, hrun] at h
    cases h
    have hcur : v.cur = p := hkept.cur.trans htaken.cur
    refine .inr ⟨p, w, responseWord r, ?_, ?_, ?_, fun q hq => ⟨?_, ?_⟩⟩
    · rw [respond_pendingOn, hkept.pendingOn, htaken.head]
    · rw [respond_responsesOn, if_pos hcur.symm, hkept.responsesOn, htaken.responsesOn]
    · rw [respond_cur, hcur]
    · rw [respond_pendingOn, hkept.pendingOn, htaken.other q hq]
    · rw [respond_responsesOn, if_neg (hcur ▸ hq), hkept.responsesOn, htaken.responsesOn]

end Sys2Proof.Machine

namespace Sys2Proof.Machine

/-! ## O41: Windows stay real (spec/30_encoding.md R90, spec/40_handoff.md R131)

A command keeps the imaginary parts of a real slot at `+0.0` (`storedBy_real`, over the stores of `exec_slots`), and a slot
that is live after a command was live before, or has just been cleared (`exec_live`). -/

/-- Slot `x` holds a published Window or the one being written: the slots that `State.RealWindows` speaks of. -/
def State.Live (s : State) (x : Slot) : Prop := fullOf s x = true ∨ (s.wIn = true ∧ x = s.active)

/-- Every element has the imaginary part `+0.0`. -/
def RealElements (w : List Cplx) : Prop := ∀ e ∈ w, e.im = fPosZero

theorem realElements_replicate_cZero (n : Nat) : RealElements (List.replicate n cZero) := by
  intro e he
  rw [List.eq_of_mem_replicate he]
  rfl

theorem RealElements.set {w : List Cplx} (h : RealElements w) (i : Nat) {c : Cplx} (hc : c.im = fPosZero) :
    RealElements (w.set i c) := by
  intro e he
  rcases List.mem_or_eq_of_mem_set he with hold | rfl
  · exact h e hold
  · exact hc

/-- A command stores nothing into a slot but samples (R90) and zeros (R114). -/
theorem storedBy_real {s : State} {x : Slot} (h : RealElements (slotOf s x)) (i : Instr) :
    RealElements (slotOf (storedBy i s) x) := by
  by_cases hx : x = s.active
  · subst hx
    cases i with
    | pPush v =>
      rw [storedBy]
      split
      · rw [slotOf_slotWrite, if_pos rfl]
        exact h.set _ rfl
      · exact h
    | pStart =>
      rw [storedBy]
      split
      · rw [slotOf_clearSlot, if_pos rfl]
        exact realElements_replicate_cZero _
      · exact h
    | nop | pStop | cStart | cFft | cEnd | cCompress | rdStatus _ => exact h
  · rwa [slotOf_storedBy_other hx]

theorem fullOf_congr {s t : State} (h0 : t.full0 = s.full0) (h1 : t.full1 = s.full1) (x : Slot) : fullOf t x = fullOf s x := by
  cases x
  · exact h0
  · exact h1

/-- Every slot that is live in `t` is live in `s`. -/
def NoNewLive (s t : State) : Prop := ∀ x, t.Live x → s.Live x

theorem noNewLive_of_eq {s t : State} (h0 : t.full0 = s.full0) (h1 : t.full1 = s.full1) (hw : t.wIn = s.wIn)
    (ha : t.active = s.active) : NoNewLive s t := by
  intro x hx
  rwa [State.Live, fullOf_congr h0 h1, hw, ha] at hx

theorem NoNewLive.trans {s u t : State} (hsu : NoNewLive s u) (hut : NoNewLive u t) : NoNewLive s t :=
  fun x hx => hsu x (hut x hx)

theorem respond_noNewLive (r : Response) (s : State) : NoNewLive s (respond r s) :=
  noNewLive_of_eq (by simp) (by simp) (by simp) (by simp)

theorem raiseFault_noNewLive (s : State) (f : FaultCode) : NoNewLive s (raiseFault f s) :=
  noNewLive_of_eq (by simp) (by simp) (by simp) (by simp)

theorem clearSlot_noNewLive (x : Slot) (s : State) : NoNewLive s (clearSlot x s) :=
  noNewLive_of_eq (by simp) (by simp) (by simp) (by simp)

/-- The flip comes when the last agent leaves (R112) and empties the new write slot (R113). -/
theorem exitSection_noNewLive {s : State} (hlast : s.concurrent = 1 → s.wIn = false) : NoNewLive s (exitSection s).1 := by
  rcases exitSection_cases s with ⟨hone, -, hexit⟩ | ⟨-, hexit⟩
  · intro x hx
    rw [hexit, State.Live, fullOf_flipRoles, flipRoles_wIn] at hx
    rcases hx with hfull | ⟨hw, -⟩
    · split at hfull
      · cases hfull
      · exact .inl hfull
    · simp [hlast hone] at hw
  · rw [hexit]
    exact noNewLive_of_eq rfl rfl rfl rfl

/-- The slot that `P.STOP` marks full is the one that was being written (R117). -/
theorem publish_noNewLive {s : State} (hw : s.wIn = true) :
    NoNewLive s { setFull s.active true s with wIn := false, lastWValid := true, lastW := s.active } := by
  rintro x (hfull | ⟨hout, -⟩)
  · have hmarked : fullOf (setFull s.active true s) x = true := hfull
    rw [fullOf_setFull] at hmarked
    split at hmarked
    · exact .inr ⟨hw, ‹_›⟩
    · exact .inl hmarked
  · cases hout

/-- `C.END` marks the read slot empty (R119). -/
theorem release_noNewLive (s : State) : NoNewLive s { setFull (readSlot s) false s with rIn := false } := by
  rintro x (hfull | ⟨hw, hx⟩)
  · have hmarked : fullOf (setFull (readSlot s) false s) x = true := hfull
    rw [fullOf_setFull] at hmarked
    split at hmarked
    · cases hmarked
    · exact .inl hmarked
  · exact .inr ⟨by simpa using hw, by simpa using hx⟩

/-- The consumer alone inside leaves nobody writing (R120). -/
theorem wIn_of_concurrent_one {s : State} (hs : s.Inv) (hr : s.rIn = true) (hone : s.concurrent = 1) : s.wIn = false := by
  have hcount := hs.concurrent_eq
  rw [hone, hr] at hcount
  cases hw : s.wIn with
  | false => rfl
  | true => simp [hw] at hcount

/-- No command but `P.START` gives a slot to write, and only the slot written is published. -/
theorem exec_noNewLive {i : Instr} {s t : State} (hs : s.Inv) (hi : i ≠ .pStart) (h : exec i s = .next t) :
    NoNewLive s t := by
  cases i with
  | nop =>
    cases h
    exact respond_noNewLive _ s
  | pStart => exact absurd rfl hi
  | pPush v =>
    refine of_guard (raiseFault_noNewLive s) h fun _ h => ?_
    refine of_guard (raiseFault_noNewLive s) h fun _ h => ?_
    refine of_guard (raiseFault_noNewLive s) h fun _ h => ?_
    cases h
    exact noNewLive_of_eq (by simp) (by simp) (by simp) (by simp)
  | pStop =>
    refine of_guard (raiseFault_noNewLive s) h fun _ h => ?_
    refine of_guard (raiseFault_noNewLive s) h fun hw h => ?_
    refine of_guard (raiseFault_noNewLive s) h fun _ h => ?_
    cases h
    have hin : s.wIn = true := by simpa using hw
    exact (publish_noNewLive hin).trans ((exitSection_noNewLive fun _ => rfl).trans (respond_noNewLive _ _))
  | cStart =>
    refine of_guard (raiseFault_noNewLive s) h fun _ h => ?_
    split at h <;> cases h <;> exact noNewLive_of_eq (by simp) (by simp) (by simp) (by simp)
  | cFft =>
    refine of_guard (raiseFault_noNewLive s) h fun _ h => ?_
    cases h
    exact noNewLive_of_eq (by simp) (by simp) (by simp) (by simp)
  | cEnd =>
    refine of_guard (raiseFault_noNewLive s) h fun hr h => ?_
    cases h
    have hlast : s.concurrent = 1 → s.wIn = false := wIn_of_concurrent_one hs (by simpa using hr)
    exact (release_noNewLive s).trans ((exitSection_noNewLive (by simpa using hlast)).trans (respond_noNewLive _ _))
  | cCompress =>
    refine of_guard (raiseFault_noNewLive s) h fun _ h => ?_
    cases h
    exact noNewLive_of_eq (by simp) (by simp) (by simp) (by simp)
  | rdStatus sel =>
    simp only [exec, execRdStatus] at h
    split at h <;> cases h
    · exact raiseFault_noNewLive s _
    · exact respond_noNewLive _ s

/-- The slot that a `P.START` hands out is cleared, or it holds the Window last published, which by the invariant is still
full (R115). -/
theorem pStart_live {s t : State} {x : Slot} (hs : s.Inv) (h : exec .pStart s = .next t) (ht : t.Live x) :
    s.Live x ∨ slotOf (storedBy .pStart s) x = List.replicate s.cfg.n cZero := by
  rcases guard_cases h with ⟨-, rfl⟩ | ⟨hmd, h⟩
  · exact .inl (raiseFault_noNewLive s _ x ht)
  rcases guard_cases h with ⟨-, rfl⟩ | ⟨hw, h⟩
  · exact .inl (raiseFault_noNewLive s _ x ht)
  cases h
  have hentered : (enter { s with wIn := true }).Live x := by
    have hlive := respond_noNewLive _ _ x ht
    split at hlive
    · exact hlive
    · exact clearSlot_noNewLive _ _ x hlive
  rcases hentered with hfull | ⟨-, hx⟩
  · exact .inl (.inl hfull)
  have hactive : x = s.active := hx
  subst hactive
  cases hsame : sameSlot s with
  | true => exact .inl (.inl (hs.full_active.trans hsame))
  | false =>
    have hstored : storedBy .pStart s = clearSlot s.active s := if_pos ⟨by simpa using hmd, by simpa using hw, hsame⟩
    exact .inr (by rw [hstored, slotOf_clearSlot, if_pos rfl])

/-- A slot that is live after a command was live before, or the command has just cleared it. -/
theorem exec_live {i : Instr} {s t : State} {x : Slot} (hs : s.Inv) (h : exec i s = .next t) (ht : t.Live x) :
    s.Live x ∨ slotOf (storedBy i s) x = List.replicate s.cfg.n cZero := by
  by_cases hi : i = .pStart
  · subst hi
    exact pStart_live hs h ht
  · exact .inl (exec_noNewLive hs hi h x ht)

theorem exec_realWindows {i : Instr} {s t : State} (hs : s.Inv) (hreal : s.RealWindows) (h : exec i s = .next t) :
    t.RealWindows := by
  intro x hx
  rw [(exec_slots h).slotOf]
  rcases exec_live hs h hx with hlive | hcleared
  · exact storedBy_real (hreal x hlive) i
  · rw [hcleared]
    exact realElements_replicate_cZero _

theorem State.RealWindows.of_sameSlots {s t : State} (hreal : s.RealWindows) (hslots : SameSlots s t)
    (hlive : NoNewLive s t) : t.RealWindows := by
  intro x hx
  rw [hslots.slotOf]
  exact hreal x (hlive x hx)

theorem Taken.realWindows {p : Port} {w : Word64} {s u : State} (h : Taken p w s u) (hreal : s.RealWindows) :
    u.RealWindows := by
  rw [h.frame]
  exact hreal.of_sameSlots ⟨rfl, rfl⟩ (noNewLive_of_eq rfl rfl rfl rfl)

/-- After reset no slot is full and nobody writes (R251). -/
theorem applyReset_realWindows (s : State) : (applyReset s).RealWindows := by
  rintro x (hfull | ⟨hw, -⟩)
  · cases x <;> cases hfull
  · cases hw

/-- Settles O41: a reset leaves no slot live, a hold changes nothing, and a word is taken and then faults or runs a
command (`exec_realWindows`). -/
theorem stepKeepsWindowsReal : Obligations.StepKeepsWindowsReal := by
  unfold Obligations.StepKeepsWindowsReal
  intro s t hs hreal h
  rcases step_cases h with ⟨-, rfl⟩ | ⟨-, -, -, rfl⟩ | ⟨p, w, u, -, -, htaken, ⟨f, -, rfl⟩ | ⟨i, -, hexec⟩⟩
  · exact applyReset_realWindows s
  · exact hreal
  · exact (htaken.realWindows hreal).of_sameSlots (raiseFault_sameSlots u f) (raiseFault_noNewLive u f)
  · exact exec_realWindows (taken_inv htaken hs) (htaken.realWindows hreal) hexec

end Sys2Proof.Machine

namespace Sys2Proof.Machine

/-! ## O7, O17, O18, O21, O22, O23: the order of the ports and the rules of the five handoff commands (spec/40_handoff.md)

A rule's checks come first, so each of its faults is an `if` taken. Past them `P.STOP` and `C.END` leave the critical section:
the four `exitSection_` lemmas say what that gives, flipped or not, in terms of the state before the command. -/

theorem arrival_of_both_portP {s : State} {w v : Word64} {ws vs : List Word64} (hp : s.pIn = w :: ws) (hc : s.cIn = v :: vs)
    (hchosen : chosenPort s = .portP) :
    arrival s = .command .portP w { spendChoice s with pIn := ws, cur := .portP } := by
  have htake := takeP_cons (s := spendChoice s) (by simpa using hp)
  simp [arrival, hp, hc, hchosen, htake]

theorem arrival_of_both_portC {s : State} {w v : Word64} {ws vs : List Word64} (hp : s.pIn = w :: ws) (hc : s.cIn = v :: vs)
    (hchosen : chosenPort s = .portC) :
    arrival s = .command .portC v { spendChoice s with cIn := vs, cur := .portC } := by
  have htake := takeC_cons (s := spendChoice s) (by simpa using hc)
  simp [arrival, hp, hc, hchosen, htake]

/-- Settles O7: with both ports pending, `arrival` takes from the port that `chosenPort` names and spends that choice. -/
theorem eitherPortMayGoFirst : Obligations.EitherPortMayGoFirst := by
  unfold Obligations.EitherPortMayGoFirst
  intro s w ws v vs hp hc
  refine ⟨fun gs hg => ?_, fun gs hg => ?_, fun hg => ?_⟩
  · rw [arrival_of_both_portP hp hc (by simp [chosenPort, hg])]
    simp [spendChoice, hg]
  · rw [arrival_of_both_portC hp hc (by simp [chosenPort, hg])]
    simp [spendChoice, hg]
  · cases hfree : Config.arbiter s.turn
    · rw [arrival_of_both_portP hp hc (by simp [chosenPort, hg, hfree])]
      simp [spendChoice, hg]
    · rw [arrival_of_both_portC hp hc (by simp [chosenPort, hg, hfree])]
      simp [spendChoice, hg]

theorem clearSlot_eq (x : Slot) (s : State) :
    clearSlot x s = { s with
      slot0 := if x = .s0 then List.replicate s.cfg.n cZero else s.slot0
      slot1 := if x = .s1 then List.replicate s.cfg.n cZero else s.slot1 } := by
  cases x <;> rfl

theorem slotWrite_eq (x : Slot) (k : Nat) (c : Cplx) (s : State) :
    slotWrite x k c s = { s with
      slot0 := if x = .s0 then s.slot0.set k c else s.slot0
      slot1 := if x = .s1 then s.slot1.set k c else s.slot1 } := by
  cases x <;> rfl

/-- Settles O17: the two checks, then the two outcomes of the comparison with the slot last published (R115). -/
theorem pStartFollowsItsRule : Obligations.PStartFollowsItsRule := by
  unfold Obligations.PStartFollowsItsRule
  intro s
  refine ⟨fun hmd => ?_, fun hmd hw => ?_, fun hmd hw hvalid hlast => ?_, fun hmd hw hnot => ?_⟩
  · simp [exec, execPStart, hmd, raiseFault_eq_faulted, FaultCode.toByte]
  · simp [exec, execPStart, hmd, hw, raiseFault_eq_faulted, FaultCode.toByte]
  · have hsame : sameSlot s = true := by simp [sameSlot, hvalid, hlast]
    simp [exec, execPStart, hmd, hw, hsame, enter]
  · have hsame : sameSlot s = false := by
      rcases hnot with hnone | hother
      · simp [sameSlot, hnone]
      · simp [sameSlot, hother]
    simp [exec, execPStart, hmd, hw, hsame, enter, clearSlot_eq, cZero, fPosZero, Config.n]

/-- Settles O18: the three checks, then the store. -/
theorem pPushFollowsItsRule : Obligations.PPushFollowsItsRule := by
  unfold Obligations.PPushFollowsItsRule
  intro v s
  refine ⟨fun hmd => ?_, fun hmd hw => ?_, fun hmd hw hfill => ?_, fun hmd hw hfill => ?_⟩
  · simp [exec, execPPush, hmd, raiseFault_eq_faulted, FaultCode.toByte]
  · simp [exec, execPPush, hmd, hw, raiseFault_eq_faulted, FaultCode.toByte]
  · simp [exec, execPPush, hmd, hw, hfill, Config.n, raiseFault_eq_faulted, FaultCode.toByte]
  · simp [exec, execPPush, hmd, hw, hfill, Config.n, slotWrite_eq, sampleElement, fPosZero, fillWord]

/-- `P.STOP` up to its `Exit()` (R117): the write slot is marked full and the producer is out. -/
def published (s : State) : State := { setFull s.active true s with wIn := false, lastWValid := true, lastW := s.active }

/-- `C.END` up to its `Exit()` (R119): the read slot is marked empty and the consumer is out. -/
def released (s : State) : State := { setFull (readSlot s) false s with rIn := false }

theorem published_active (s : State) : (published s).active = s.active := setFull_active s.active true s

theorem released_active (s : State) : (released s).active = s.active := setFull_active (readSlot s) false s

theorem fullOf_published (s : State) (x : Slot) : fullOf (published s) x = if x = s.active then true else fullOf s x :=
  fullOf_setFull s.active x true s

theorem fullOf_released (s : State) (x : Slot) : fullOf (released s) x = if x = readSlot s then false else fullOf s x :=
  fullOf_setFull (readSlot s) x false s

theorem exec_pStop_full {s : State} (hmd : s.md = false) (hw : s.wIn = true) (hfill : s.fill = s.cfg.n) :
    exec .pStop s = .next (respond { ok := true, slot := s.active, flip := (exitSection (published s)).2 }
      (exitSection (published s)).1) := by
  rw [exec, execPStop, if_neg (by simp [hmd]), if_neg (by simp [hw]), if_neg (by simp [hfill])]
  rfl

theorem exec_cEnd_held {s : State} (hr : s.rIn = true) :
    exec .cEnd s = .next (respond { ok := true, flip := (exitSection (released s)).2 } (exitSection (released s)).1) := by
  rw [exec, execCEnd, if_neg (by simp [hr])]
  rfl

/-- The last agent out publishes, and so flips: the old write slot alone is full and is the read slot now (R112, R113). -/
theorem exitSection_published_last {s : State} (hlast : s.concurrent = 1) :
    exitSection (published s) =
      ({ s with
          full0 := s.active == .s0, full1 := s.active == .s1, wIn := false, lastWValid := true, lastW := s.active
          concurrent := 0, active := otherSlot s.active }, true) := by
  rcases exitSection_cases (published s) with ⟨-, -, hexit⟩ | ⟨hinside | hempty, -⟩
  · rw [hexit]
    cases hactive : s.active <;> simp [published, flipRoles, setFull, otherSlot, hactive, hlast]
  · exact absurd ((setFull_concurrent _ _ s).trans hlast) hinside
  · have hfull : fullOf (published s) (published s).active = true := by
      rw [published_active, fullOf_published, if_pos rfl]
    simp [hfull] at hempty

/-- A publish that leaves another agent inside does not flip (R129). -/
theorem exitSection_published_inside {s : State} (hinside : s.concurrent ≠ 1) :
    exitSection (published s) =
      ({ s with
          full0 := s.full0 || s.active == .s0, full1 := s.full1 || s.active == .s1, wIn := false, lastWValid := true
          lastW := s.active, concurrent := s.concurrent - 1 }, false) := by
  rcases exitSection_cases (published s) with ⟨hlast, -⟩ | ⟨-, hexit⟩
  · exact absurd ((setFull_concurrent _ _ s).symm.trans hlast) hinside
  · rw [hexit]
    cases hactive : s.active <;> simp [published, setFull, hactive]

theorem fullOf_released_active (s : State) : fullOf (released s) (released s).active = fullOf s s.active := by
  rw [released_active]
  exact (fullOf_released s s.active).trans (if_neg (ne_otherSlot s.active))

/-- The last agent out releases its Window with a publish pending, and so flips: the pending Window's slot alone is full and
is the read slot now (R112, R113). -/
theorem exitSection_released_pending {s : State} (hlast : s.concurrent = 1) (hpending : fullOf s s.active = true) :
    exitSection (released s) =
      ({ s with
          full0 := s.active == .s0, full1 := s.active == .s1, rIn := false, concurrent := 0
          active := otherSlot s.active }, true) := by
  rcases exitSection_cases (released s) with ⟨-, -, hexit⟩ | ⟨hinside | hempty, -⟩
  · rw [hexit]
    cases hactive : s.active <;> rw [hactive, fullOf] at hpending <;>
      simp [released, readSlot, flipRoles, setFull, otherSlot, hactive, hlast, hpending]
  · exact absurd ((setFull_concurrent _ _ s).trans hlast) hinside
  · simp [fullOf_released_active, hpending] at hempty

/-- A release that leaves the producer inside, or finds no publish pending, does not flip. -/
theorem exitSection_released_quiet {s : State} (hquiet : s.concurrent ≠ 1 ∨ fullOf s s.active = false) :
    exitSection (released s) =
      ({ s with
          full0 := s.full0 && s.active == .s0, full1 := s.full1 && s.active == .s1, rIn := false
          concurrent := s.concurrent - 1 }, false) := by
  rcases exitSection_cases (released s) with ⟨hlast, hpending, -⟩ | ⟨-, hexit⟩
  · have hone : s.concurrent = 1 := (setFull_concurrent _ _ s).symm.trans hlast
    rw [fullOf_released_active] at hpending
    simp [hone, hpending] at hquiet
  · rw [hexit]
    cases hactive : s.active <;> simp [released, readSlot, setFull, otherSlot, hactive]

/-- Settles O21: the three checks, then the exit. -/
theorem pStopFollowsItsRule : Obligations.PStopFollowsItsRule := by
  unfold Obligations.PStopFollowsItsRule
  intro s
  refine ⟨fun hmd => ?_, fun hmd hw => ?_, fun hmd hw hfill => ?_, fun hmd hw hfill hlast => ?_,
    fun hmd hw hfill hinside => ?_⟩
  · simp [exec, execPStop, hmd, raiseFault_eq_faulted, FaultCode.toByte]
  · simp [exec, execPStop, hmd, hw, raiseFault_eq_faulted, FaultCode.toByte]
  · simp [exec, execPStop, hmd, hw, hfill, Config.n, raiseFault_eq_faulted, FaultCode.toByte]
  · rw [exec_pStop_full hmd hw hfill, exitSection_published_last hlast]
  · rw [exec_pStop_full hmd hw hfill, exitSection_published_inside hinside]

/-- Settles O22: the check, then the read slot's full bit decides. -/
theorem cStartFollowsItsRule : Obligations.CStartFollowsItsRule := by
  unfold Obligations.CStartFollowsItsRule
  intro s
  refine ⟨fun hr => ?_, fun hr hempty => ?_, fun hr hfull => ?_⟩
  · simp [exec, execCStart, hr, raiseFault_eq_faulted, FaultCode.toByte]
  · simp [exec, execCStart, hr, readSlot, hempty]
  · simp [exec, execCStart, hr, readSlot, hfull, enter]

/-- Settles O23: the check, then the exit. -/
theorem cEndFollowsItsRule : Obligations.CEndFollowsItsRule := by
  unfold Obligations.CEndFollowsItsRule
  intro s
  refine ⟨fun hr => ?_, fun hr hlast hpending => ?_, fun hr hquiet => ?_⟩
  · simp [exec, execCEnd, hr, raiseFault_eq_faulted, FaultCode.toByte]
  · rw [exec_cEnd_held hr, exitSection_released_pending hlast hpending]
  · rw [exec_cEnd_held hr, exitSection_released_quiet hquiet]

end Sys2Proof.Machine

namespace Sys2Proof.Machine

/-! ## The handoff buffer as a machine of its own

The statements about the handoff buffer speak of eight values (`Roles`) and of the slots. `Move` says once what a step without
reset can do to them: nothing, or one of four role changes, two of which end in a flip. Every statement below is a case
analysis over `Move`. -/

/-- The part of the state that decides who may use which slot (R24 to R28, R30, R31). -/
@[ext] structure Roles where
  active : Slot
  concurrent : BitVec 2
  full : Slot → Bool
  wIn : Bool
  rIn : Bool
  lastWValid : Bool
  lastW : Slot
  md : Bool

def State.roles (s : State) : Roles where
  active := s.active
  concurrent := s.concurrent
  full := fullOf s
  wIn := s.wIn
  rIn := s.rIn
  lastWValid := s.lastWValid
  lastW := s.lastW
  md := s.md

namespace Roles

/-- The write slot is the slot last published (R114). -/
def same (r : Roles) : Bool := r.lastWValid && r.lastW == r.active

/-- `P.START` past its checks (R114, R115). -/
def start (r : Roles) : Roles := { r with concurrent := r.concurrent + 1, wIn := true, md := r.same }

/-- `P.STOP` past its checks (R117). -/
def publish (r : Roles) : Roles :=
  { r with
    full := fun x => r.full x || r.active == x, wIn := false, lastWValid := true, lastW := r.active
    concurrent := r.concurrent - 1 }

/-- `C.START` of a full read slot (R118). -/
def grant (r : Roles) : Roles := { r with concurrent := r.concurrent + 1, rIn := true }

/-- `C.END` past its check (R119). -/
def release (r : Roles) : Roles :=
  { r with full := fun x => r.full x && r.active == x, rIn := false, concurrent := r.concurrent - 1 }

/-- `Flip()` with the write slot full (R112, R113): the slots change roles, the old write slot alone is full. -/
def flip (r : Roles) : Roles := { r with full := fun x => r.active == x, active := otherSlot r.active }

end Roles

/-- What a step without reset does to the roles and the slots of the handoff buffer. -/
inductive Move (s t : State) : Prop
  | keep (roles : t.roles = s.roles) (slots : SameSlots s t)
  | push (hmd : s.md = false) (hw : s.wIn = true) (roles : t.roles = s.roles)
      (slots : ∀ x, x ≠ s.active → slotOf t x = slotOf s x)
  | start (hmd : s.md = false) (hw : s.wIn = false) (roles : t.roles = s.roles.start)
      (slots : ∀ x, x ≠ s.active → slotOf t x = slotOf s x)
  | publish (hmd : s.md = false) (hw : s.wIn = true) (hfill : s.fill = s.cfg.n) (hinside : s.concurrent ≠ 1)
      (roles : t.roles = s.roles.publish) (slots : SameSlots s t)
  | publishFlip (hmd : s.md = false) (hw : s.wIn = true) (hfill : s.fill = s.cfg.n) (hlast : s.concurrent = 1)
      (roles : t.roles = s.roles.publish.flip) (slots : SameSlots s t)
  | grant (hr : s.rIn = false) (hfull : fullOf s (readSlot s) = true) (roles : t.roles = s.roles.grant)
      (slots : SameSlots s t)
  | release (hr : s.rIn = true) (hquiet : s.concurrent ≠ 1 ∨ fullOf s s.active = false)
      (roles : t.roles = s.roles.release) (slots : SameSlots s t)
  | releaseFlip (hr : s.rIn = true) (hlast : s.concurrent = 1) (hpending : fullOf s s.active = true)
      (roles : t.roles = s.roles.release.flip) (slots : SameSlots s t)

/-- Roles agree once the full bits do; the other roles are fields, so they agree by computation. -/
theorem roles_eq_of_full {t : State} {r : Roles} (hfields : { r with full := fullOf t } = t.roles)
    (hfull : ∀ x, fullOf t x = r.full x) : t.roles = r := by
  rw [← hfields, funext hfull]

@[simp] theorem roles_respond (r : Response) (s : State) : (respond r s).roles = s.roles :=
  Roles.ext (by simp [State.roles]) (by simp [State.roles]) (funext (fullOf_respond r s)) (by simp [State.roles])
    (by simp [State.roles]) (by simp [State.roles]) (by simp [State.roles]) (by simp [State.roles])

@[simp] theorem roles_raiseFault (f : FaultCode) (s : State) : (raiseFault f s).roles = s.roles := by
  rw [raiseFault_eq, roles_respond]
  exact roles_eq_of_full rfl fun x => fullOf_congr rfl rfl x

@[simp] theorem roles_clearSlot (x : Slot) (s : State) : (clearSlot x s).roles = s.roles := by
  rw [clearSlot_eq]
  exact roles_eq_of_full rfl fun x => fullOf_congr rfl rfl x

@[simp] theorem roles_slotWrite (x : Slot) (k : Nat) (c : Cplx) (s : State) : (slotWrite x k c s).roles = s.roles := by
  rw [slotWrite_eq]
  exact roles_eq_of_full rfl fun x => fullOf_congr rfl rfl x

theorem Move.refl (s : State) : Move s s := .keep rfl ⟨rfl, rfl⟩

theorem raiseFault_move (s : State) (f : FaultCode) : Move s (raiseFault f s) :=
  .keep (roles_raiseFault f s) (raiseFault_sameSlots s f)

/-- A command that answers and leaves the roles and the slots alone. -/
theorem respond_move (r : Response) {s u : State} (hroles : u.roles = s.roles) (hslots : SameSlots s u) :
    Move s (respond r u) :=
  .keep ((roles_respond r u).trans hroles) ⟨by simpa using hslots.slot0, by simpa using hslots.slot1⟩

theorem exec_slots_other {i : Instr} {s t : State} {x : Slot} (hx : x ≠ s.active) (h : exec i s = .next t) :
    slotOf t x = slotOf s x :=
  ((exec_slots h).slotOf x).trans (slotOf_storedBy_other hx i)

theorem pStart_roles {s t : State} (hmd : s.md = false) (hw : s.wIn = false) (h : exec .pStart s = .next t) :
    t.roles = s.roles.start := by
  rw [exec, execPStart, if_neg (by simp [hmd]), if_neg (by simp [hw])] at h
  cases h
  rw [roles_respond]
  cases hsame : sameSlot s with
  | true => exact Roles.ext rfl rfl rfl rfl rfl rfl rfl hsame.symm
  | false =>
    refine (roles_clearSlot s.active (enter { s with wIn := true })).trans ?_
    exact Roles.ext rfl rfl rfl rfl rfl rfl rfl (hmd.trans hsame.symm)

theorem pStop_roles_last {s t : State} (hmd : s.md = false) (hw : s.wIn = true) (hfill : s.fill = s.cfg.n)
    (hlast : s.concurrent = 1) (h : exec .pStop s = .next t) : t.roles = s.roles.publish.flip := by
  rw [exec_pStop_full hmd hw hfill, exitSection_published_last hlast] at h
  cases h
  rw [roles_respond]
  refine roles_eq_of_full ?_ fun x => by cases x <;> rfl
  simp [State.roles, Roles.publish, Roles.flip, hlast]

theorem pStop_roles_inside {s t : State} (hmd : s.md = false) (hw : s.wIn = true) (hfill : s.fill = s.cfg.n)
    (hinside : s.concurrent ≠ 1) (h : exec .pStop s = .next t) : t.roles = s.roles.publish := by
  rw [exec_pStop_full hmd hw hfill, exitSection_published_inside hinside] at h
  cases h
  rw [roles_respond]
  exact roles_eq_of_full rfl fun x => by cases x <;> rfl

theorem cEnd_roles_pending {s t : State} (hr : s.rIn = true) (hlast : s.concurrent = 1)
    (hpending : fullOf s s.active = true) (h : exec .cEnd s = .next t) : t.roles = s.roles.release.flip := by
  rw [exec_cEnd_held hr, exitSection_released_pending hlast hpending] at h
  cases h
  rw [roles_respond]
  refine roles_eq_of_full ?_ fun x => by cases x <;> rfl
  simp [State.roles, Roles.release, Roles.flip, hlast]

theorem cEnd_roles_quiet {s t : State} (hr : s.rIn = true) (hquiet : s.concurrent ≠ 1 ∨ fullOf s s.active = false)
    (h : exec .cEnd s = .next t) : t.roles = s.roles.release := by
  rw [exec_cEnd_held hr, exitSection_released_quiet hquiet] at h
  cases h
  rw [roles_respond]
  exact roles_eq_of_full rfl fun x => by cases x <;> rfl

theorem pStart_move {s t : State} (h : exec .pStart s = .next t) : Move s t := by
  refine of_guard (raiseFault_move s) h fun hmd h' => of_guard (raiseFault_move s) h' fun hw _ => ?_
  have hrunning : s.md = false := by simpa using hmd
  have hout : s.wIn = false := by simpa using hw
  exact .start hrunning hout (pStart_roles hrunning hout h) fun x hx => exec_slots_other hx h

theorem pPush_move {v : Word32} {s t : State} (h : exec (.pPush v) s = .next t) : Move s t := by
  have hslots : ∀ x, x ≠ s.active → slotOf t x = slotOf s x := fun x hx => exec_slots_other hx h
  refine of_guard (raiseFault_move s) h fun hmd h => of_guard (raiseFault_move s) h fun hw h =>
    of_guard (raiseFault_move s) h fun _ h => ?_
  cases h
  refine .push (by simpa using hmd) (by simpa using hw) ?_ hslots
  exact (roles_respond _ _).trans (roles_slotWrite s.active s.fill (sampleElement v) s)

theorem pStop_move {s t : State} (h : exec .pStop s = .next t) : Move s t := by
  refine of_guard (raiseFault_move s) h fun hmd h' => of_guard (raiseFault_move s) h' fun hw h' =>
    of_guard (raiseFault_move s) h' fun hfill _ => ?_
  have hrunning : s.md = false := by simpa using hmd
  have hin : s.wIn = true := by simpa using hw
  have hwhole : s.fill = s.cfg.n := not_not.1 hfill
  by_cases hlast : s.concurrent = 1
  · exact .publishFlip hrunning hin hwhole hlast (pStop_roles_last hrunning hin hwhole hlast h) (exec_slots h)
  · exact .publish hrunning hin hwhole hlast (pStop_roles_inside hrunning hin hwhole hlast h) (exec_slots h)

theorem cStart_move {s t : State} (h : exec .cStart s = .next t) : Move s t := by
  refine of_guard (raiseFault_move s) h fun hr h => ?_
  split at h <;> cases h
  · exact .grant (by simpa using hr) ‹_› (roles_respond _ _) ⟨by simp, by simp⟩
  · exact respond_move _ rfl ⟨rfl, rfl⟩

theorem cEnd_move {s t : State} (h : exec .cEnd s = .next t) : Move s t := by
  refine of_guard (raiseFault_move s) h fun hr _ => ?_
  have hheld : s.rIn = true := by simpa using hr
  by_cases hflip : s.concurrent = 1 ∧ fullOf s s.active = true
  · obtain ⟨hlast, hpending⟩ := hflip
    exact .releaseFlip hheld hlast hpending (cEnd_roles_pending hheld hlast hpending h) (exec_slots h)
  · have hquiet : s.concurrent ≠ 1 ∨ fullOf s s.active = false := by simpa [imp_iff_not_or] using hflip
    exact .release hheld hquiet (cEnd_roles_quiet hheld hquiet h) (exec_slots h)

/-- The commands of the transform, the compressor and the control group touch neither the roles nor the slots. -/
theorem exec_move {i : Instr} {s t : State} (h : exec i s = .next t) : Move s t := by
  cases i with
  | nop =>
    cases h
    exact respond_move _ rfl ⟨rfl, rfl⟩
  | pStart => exact pStart_move h
  | pPush v => exact pPush_move h
  | pStop => exact pStop_move h
  | cStart => exact cStart_move h
  | cFft =>
    refine of_guard (raiseFault_move s) h fun _ h => ?_
    cases h
    exact respond_move _ rfl ⟨rfl, rfl⟩
  | cEnd => exact cEnd_move h
  | cCompress =>
    refine of_guard (raiseFault_move s) h fun _ h => ?_
    cases h
    exact respond_move _ rfl ⟨rfl, rfl⟩
  | rdStatus sel =>
    simp only [exec, execRdStatus] at h
    split at h <;> cases h
    · exact raiseFault_move s _
    · exact respond_move _ rfl ⟨rfl, rfl⟩

/-- `s` with the port data of `q`. -/
def atPorts (s q : State) : State :=
  { s with pIn := q.pIn, cIn := q.cIn, cur := q.cur, grants := q.grants, turn := q.turn }

theorem Taken.eq_atPorts {p : Port} {w : Word64} {s u : State} (h : Taken p w s u) : u = atPorts s u := by
  rw [atPorts, h.cur]
  exact h.frame

/-- A step without reset moves, once the port data is set aside. -/
theorem step_move {s t : State} (hreset : s.resetIn = false) (h : step s = .next t) : ∃ q, Move (atPorts s q) t := by
  rcases step_cases h with ⟨hreset', -⟩ | ⟨-, -, -, rfl⟩ | ⟨p, w, u, -, -, htaken, ⟨f, -, rfl⟩ | ⟨i, -, hexec⟩⟩
  · simp [hreset] at hreset'
  · exact ⟨t, .refl t⟩
  · exact ⟨u, htaken.eq_atPorts ▸ raiseFault_move u f⟩
  · exact ⟨u, htaken.eq_atPorts ▸ exec_move hexec⟩

end Sys2Proof.Machine

namespace Sys2Proof.Machine

/-! ## O29, O30: the invariant (spec/40_handoff.md R120, R121, R128)

The invariant speaks of the roles (`Roles.Inv`), which each of the role changes of `Move` keeps, and of the range of `ERR` and
the sizes of the storage spaces (`State.Bounded`), which no command breaks. -/

/-- The clauses of `State.Inv` that speak of the roles. -/
structure Roles.Inv (r : Roles) : Prop where
  concurrent_eq : r.concurrent.toNat = r.wIn.toNat + r.rIn.toNat
  no_pending_outside : r.concurrent = 0 → r.full r.active = false
  held_full : r.rIn = true → r.full (otherSlot r.active) = true
  full_active : r.full r.active = r.same
  full_published : ∀ x, r.full x = true → r.lastWValid = true
  md_inside : r.md = true → r.wIn = true
  md_stranded : r.wIn = true → r.full r.active = r.md
  md_read : r.md = true → r.full (otherSlot r.active) = r.rIn

/-- The clauses of `State.Inv` that do not. -/
structure State.Bounded (s : State) : Prop where
  err_code : s.err.toNat ≤ 12
  sized : s.Sized

theorem State.Inv.roles {s : State} (hs : s.Inv) : s.roles.Inv :=
  ⟨hs.concurrent_eq, hs.no_pending_outside, hs.held_full, hs.full_active, hs.full_published, hs.md_inside, hs.md_stranded,
    hs.md_read⟩

theorem State.Inv.bounded {s : State} (hs : s.Inv) : s.Bounded := ⟨hs.err_code, hs.sized⟩

theorem Roles.Inv.inv {s : State} (hs : s.roles.Inv) (hbounded : s.Bounded) : s.Inv :=
  ⟨hs.concurrent_eq, hs.no_pending_outside, hs.held_full, hs.full_active, hs.full_published, hs.md_inside, hs.md_stranded,
    hs.md_read, hbounded.err_code, hbounded.sized⟩

namespace Roles

variable {r : Roles}

/-- `CONCURRENT` by who is inside (R120). -/
theorem Inv.concurrent_of_flags (hr : r.Inv) : r.concurrent = BitVec.ofNat 2 (r.wIn.toNat + r.rIn.toNat) := by
  rw [← hr.concurrent_eq, BitVec.ofNat_toNat, BitVec.setWidth_eq]

/-- A Window that waits in the write slot while the producer is outside waits for the consumer (R121). -/
theorem Inv.held_of_waiting (hr : r.Inv) (hw : r.wIn = false) (hfull : r.full r.active = true) : r.rIn = true := by
  by_contra hout
  have hempty := hr.no_pending_outside (by simp [hr.concurrent_of_flags, hw, hout])
  simp [hfull] at hempty

/-- A Window to be granted is the one last published, and no Missed Deadline has been detected (R126, R128). -/
theorem Inv.latest_of_grantable (hr : r.Inv) (hout : r.rIn = false) (hfull : r.full (otherSlot r.active) = true) :
    r.lastWValid = true ∧ r.lastW = otherSlot r.active ∧ r.md = false := by
  have hmd : r.md = false := by
    by_contra hmd
    have hread := hr.md_read (by simpa using hmd)
    simp [hfull, hout] at hread
  have hempty : r.full r.active = false := by
    cases hw : r.wIn with
    | true => exact (hr.md_stranded hw).trans hmd
    | false =>
      by_contra hwaiting
      have hheld := hr.held_of_waiting hw (by simpa using hwaiting)
      simp [hout] at hheld
  have hvalid := hr.full_published _ hfull
  have hlast : r.lastW ≠ r.active := by
    have hsame := hr.full_active.symm.trans hempty
    simpa [same, hvalid] using hsame
  exact ⟨hvalid, eq_otherSlot_of_ne hlast, hmd⟩

/-- The producer is the last agent inside exactly when no read is held. -/
theorem Inv.concurrent_eq_one_of_writing (hr : r.Inv) (hw : r.wIn = true) : r.concurrent = 1 ↔ r.rIn = false := by
  rw [hr.concurrent_of_flags, hw]
  cases r.rIn <;> decide

/-- The consumer is the last agent inside exactly when the producer is outside. -/
theorem Inv.concurrent_eq_one_of_holding (hr : r.Inv) (hheld : r.rIn = true) : r.concurrent = 1 ↔ r.wIn = false := by
  rw [hr.concurrent_of_flags, hheld]
  cases r.wIn <;> decide

theorem Inv.start (hr : r.Inv) (hw : r.wIn = false) : r.start.Inv where
  concurrent_eq := by
    simp only [Roles.start, hr.concurrent_of_flags, hw]
    cases r.rIn <;> rfl
  no_pending_outside h := by
    simp only [Roles.start, hr.concurrent_of_flags, hw] at h
    cases hrin : r.rIn <;> simp [hrin] at h
  held_full := hr.held_full
  full_active := hr.full_active
  full_published := hr.full_published
  md_inside _ := rfl
  md_stranded _ := hr.full_active
  md_read h := by
    have hheld := hr.held_of_waiting hw (hr.full_active.trans h)
    exact (hr.held_full hheld).trans hheld.symm

/-- A publish during a hold leaves the consumer inside. -/
theorem Inv.publish (hr : r.Inv) (hmd : r.md = false) (hw : r.wIn = true) (hheld : r.rIn = true) : r.publish.Inv where
  concurrent_eq := by simp [Roles.publish, hr.concurrent_of_flags, hw, hheld]
  no_pending_outside h := by simp [Roles.publish, hr.concurrent_of_flags, hw, hheld] at h
  held_full h := by simp [Roles.publish, hr.held_full h]
  full_active := by simp [Roles.publish, same]
  full_published _ _ := rfl
  md_inside h := by simp [Roles.publish, hmd] at h
  md_stranded h := by simp [Roles.publish] at h
  md_read h := by simp [Roles.publish, hmd] at h

/-- A publish with no read held flips: nobody is inside, and the new write slot is empty. -/
theorem Inv.publish_flip (hr : r.Inv) (hmd : r.md = false) (hw : r.wIn = true) (hout : r.rIn = false) :
    r.publish.flip.Inv where
  concurrent_eq := by simp [Roles.publish, flip, hr.concurrent_of_flags, hw, hout]
  no_pending_outside _ := by simp [Roles.publish, flip]
  held_full h := by simp [Roles.publish, flip, hout] at h
  full_active := by simp [Roles.publish, flip, same]
  full_published _ _ := rfl
  md_inside h := by simp [Roles.publish, flip, hmd] at h
  md_stranded h := by simp [Roles.publish, flip] at h
  md_read h := by simp [Roles.publish, flip, hmd] at h

theorem Inv.grant (hr : r.Inv) (hout : r.rIn = false) (hfull : r.full (otherSlot r.active) = true) : r.grant.Inv where
  concurrent_eq := by
    simp only [Roles.grant, hr.concurrent_of_flags, hout]
    cases r.wIn <;> rfl
  no_pending_outside h := by
    simp only [Roles.grant, hr.concurrent_of_flags, hout] at h
    cases hw : r.wIn <;> simp [hw] at h
  held_full _ := hfull
  full_active := hr.full_active
  full_published := hr.full_published
  md_inside := hr.md_inside
  md_stranded := hr.md_stranded
  md_read _ := hfull

/-- A release with the producer inside, or with no publish pending. -/
theorem Inv.release (hr : r.Inv) (hheld : r.rIn = true) (hquiet : r.wIn = true ∨ r.full r.active = false) :
    r.release.Inv where
  concurrent_eq := by
    simp only [Roles.release, hr.concurrent_of_flags, hheld]
    cases r.wIn <;> rfl
  no_pending_outside h := by
    rcases hquiet with hw | hempty
    · simp [Roles.release, hr.concurrent_of_flags, hw, hheld] at h
    · simp [Roles.release, hempty]
  held_full h := by simp [Roles.release] at h
  full_active := by simpa [Roles.release, same] using hr.full_active
  full_published x h := hr.full_published x (by simp_all [Roles.release])
  md_inside := hr.md_inside
  md_stranded h := by simpa [Roles.release] using hr.md_stranded h
  md_read _ := by simp [Roles.release]

/-- A release with a publish pending and nobody else inside flips. -/
theorem Inv.release_flip (hr : r.Inv) (hheld : r.rIn = true) (hw : r.wIn = false) (hpending : r.full r.active = true) :
    r.release.flip.Inv where
  concurrent_eq := by simp [Roles.release, flip, hr.concurrent_of_flags, hw, hheld]
  no_pending_outside _ := by simp [Roles.release, flip]
  held_full h := by simp [Roles.release, flip] at h
  full_active := by
    have hsame : r.same = true := hr.full_active.symm.trans hpending
    have hlast : r.lastW = r.active := by simp_all [same]
    simp [Roles.release, flip, same, hlast]
  full_published _ _ := hr.full_published _ hpending
  md_inside := hr.md_inside
  md_stranded h := by simp [Roles.release, flip, hw] at h
  md_read h := by simpa [hw] using hr.md_inside h

end Roles

theorem Move.roles_inv {s t : State} (h : Move s t) (hs : s.roles.Inv) : t.roles.Inv := by
  cases h with
  | keep roles _ | push _ _ roles _ => rwa [roles]
  | start _ hw roles _ =>
    rw [roles]
    exact hs.start hw
  | publish hmd hw _ hinside roles _ =>
    have hheld : s.rIn = true :=
      Bool.eq_true_of_not_eq_false fun hout => hinside ((hs.concurrent_eq_one_of_writing hw).2 hout)
    rw [roles]
    exact hs.publish hmd hw hheld
  | publishFlip hmd hw _ hlast roles _ =>
    rw [roles]
    exact hs.publish_flip hmd hw ((hs.concurrent_eq_one_of_writing hw).1 hlast)
  | grant hr hfull roles _ =>
    rw [roles]
    exact hs.grant hr hfull
  | release hr hquiet roles _ =>
    have hstill : s.wIn = true ∨ fullOf s s.active = false := hquiet.imp_left fun hinside =>
      Bool.eq_true_of_not_eq_false fun hw => hinside ((hs.concurrent_eq_one_of_holding hr).2 hw)
    rw [roles]
    exact hs.release hr hstill
  | releaseFlip hr hlast hpending roles _ =>
    rw [roles]
    exact hs.release_flip hr ((hs.concurrent_eq_one_of_holding hr).1 hlast) hpending

theorem State.Sized.with_fill {s : State} (hs : s.Sized) {k : Nat} (hk : k ≤ s.cfg.n) : { s with fill := k }.Sized :=
  ⟨hs.slot0_length, hs.slot1_length, hs.spec_length, hk⟩

theorem raiseFault_bounded {s : State} (hs : s.Inv) (f : FaultCode) : (raiseFault f s).Bounded :=
  (raiseFault_inv f hs).bounded

theorem respond_bounded {s u : State} (hs : s.Inv) (r : Response) (herr : u.err = s.err) (hu : u.Sized) :
    (respond r u).Bounded :=
  ⟨by simpa [herr] using hs.err_code, respond_sized r hu⟩

/-- No command breaks the range of `ERR` (R221) or the sizes of the storage spaces (R50, R29). -/
theorem exec_bounded {i : Instr} {s t : State} (hs : s.Inv) (h : exec i s = .next t) : t.Bounded := by
  have hfault := raiseFault_bounded hs
  obtain ⟨hslot0, hslot1, hspec, hfill⟩ := hs.sized
  cases i with
  | nop =>
    cases h
    exact respond_bounded hs _ rfl hs.sized
  | pStart =>
    refine of_guard hfault h fun _ h => of_guard hfault h fun _ h => ?_
    cases h
    refine respond_bounded hs _ (by cases sameSlot s <;> simp) (.with_fill ?_ (Nat.zero_le _))
    cases sameSlot s
    · exact clearSlot_sized (s := enter { s with wIn := true }) s.active ⟨hslot0, hslot1, hspec, hfill⟩
    · exact ⟨hslot0, hslot1, hspec, hfill⟩
  | pPush v =>
    refine of_guard hfault h fun _ h => of_guard hfault h fun _ h => of_guard hfault h fun hnot h => ?_
    cases h
    have hnext : s.fill + 1 ≤ (slotWrite s.active s.fill (sampleElement v) s).cfg.n := by simpa using hfill.lt_of_ne hnot
    exact respond_bounded hs _ (by simp) ((slotWrite_sized s.active s.fill (sampleElement v) hs.sized).with_fill hnext)
  | pStop =>
    refine of_guard hfault h fun _ h => of_guard hfault h fun _ h => of_guard hfault h fun _ h => ?_
    cases h
    obtain ⟨hslot0, hslot1, hspec, hfill⟩ := setFull_sized s.active true hs.sized
    exact respond_bounded hs _ (by simp) (exitSection_sized ⟨hslot0, hslot1, hspec, hfill⟩)
  | cStart =>
    refine of_guard hfault h fun _ h => ?_
    split at h <;> cases h
    · exact respond_bounded hs _ rfl ⟨hslot0, hslot1, hspec, hfill⟩
    · exact respond_bounded hs _ rfl hs.sized
  | cFft =>
    refine of_guard hfault h fun _ h => ?_
    cases h
    exact respond_bounded hs _ rfl ⟨hslot0, hslot1, realFft_length _ _, hfill⟩
  | cEnd =>
    refine of_guard hfault h fun _ h => ?_
    cases h
    obtain ⟨hslot0, hslot1, hspec, hfill⟩ := setFull_sized (readSlot s) false hs.sized
    exact respond_bounded hs _ (by simp) (exitSection_sized ⟨hslot0, hslot1, hspec, hfill⟩)
  | cCompress =>
    refine of_guard hfault h fun _ h => ?_
    cases h
    exact respond_bounded hs _ rfl (appendOut_sized _ hs.sized)
  | rdStatus sel =>
    simp only [exec, execRdStatus] at h
    split at h <;> cases h
    · exact hfault _
    · exact respond_bounded hs _ rfl hs.sized

theorem exec_inv {i : Instr} {s t : State} (hs : s.Inv) (h : exec i s = .next t) : t.Inv :=
  ((exec_move h).roles_inv hs.roles).inv (exec_bounded hs h)

theorem initial_inv (c : Config) : (State.initial c).Inv where
  concurrent_eq := rfl
  no_pending_outside _ := rfl
  held_full := nofun
  full_active := rfl
  full_published x h := by cases x <;> cases h
  md_inside := nofun
  md_stranded := nofun
  md_read := nofun
  err_code := Nat.zero_le _
  sized := initial_sized c

/-- The ports, the reset input and `OUT` are no concern of the invariant. -/
theorem State.Inv.of_outside {s u : State} (hs : s.Inv)
    (hu : u = { s with
      pIn := u.pIn, cIn := u.cIn, pResp := u.pResp, cResp := u.cResp, cur := u.cur, grants := u.grants, turn := u.turn
      resetIn := u.resetIn, out := u.out }) : u.Inv := by
  obtain ⟨hslot0, hslot1, hspec, hfill⟩ := hs.sized
  rw [hu]
  exact Roles.Inv.inv hs.roles ⟨hs.err_code, hslot0, hslot1, hspec, hfill⟩

/-- Reset gives the initial state but for the ports. -/
theorem applyReset_inv (s : State) : (applyReset s).Inv := (initial_inv s.cfg).of_outside rfl

/-- Settles O29: a reset gives the invariant whatever was before, a hold changes nothing, and a word is taken and then faults
or runs a command (`exec_inv`). -/
theorem stepKeepsTheInvariant : Obligations.StepKeepsTheInvariant := by
  unfold Obligations.StepKeepsTheInvariant
  intro s t hs h
  rcases step_cases h with ⟨-, rfl⟩ | ⟨-, -, -, rfl⟩ | ⟨p, w, u, -, -, htaken, ⟨f, -, rfl⟩ | ⟨i, -, hexec⟩⟩
  · exact applyReset_inv s
  · exact hs
  · exact raiseFault_inv f (taken_inv htaken hs)
  · exact exec_inv (taken_inv htaken hs) hexec

/-- Settles O30: an event writes the ports, the reset input or the front of `OUT`. -/
theorem hostEventsKeepTheInvariant : Obligations.HostEventsKeepTheInvariant := by
  unfold Obligations.HostEventsKeepTheInvariant
  intro e s hs
  cases e with
  | issue p w => cases p <;> exact hs.of_outside rfl
  | grant p => exact hs.of_outside rfl
  | assertReset => exact hs.of_outside rfl
  | takeBytes n => exact hs.of_outside rfl

end Sys2Proof.Machine

namespace Sys2Proof.Machine

/-! ## O31 to O34, O37, O39: what one step can do to the handoff buffer (spec/40_handoff.md section 5)

Each statement is read off the constructors of `Move`: the role equation gives the fields of the next state, and the
invariant rules out the moves that the statement excludes. -/

/-- No step without reset writes a slot that is not the write slot (R62). -/
theorem Move.slotOf_other {s t : State} (h : Move s t) {x : Slot} (hx : x ≠ s.active) : slotOf t x = slotOf s x := by
  cases h with
  | push _ _ _ slots | start _ _ _ slots => exact slots x hx
  | keep _ slots | publish _ _ _ _ _ slots | publishFlip _ _ _ _ _ slots | grant _ _ _ slots | release _ _ _ slots
  | releaseFlip _ _ _ _ slots => exact slots.slotOf x

/-- Settles O32: a step writes the write slot at most, and the hold keeps the roles (`step_holdKept`). -/
theorem heldSlotIsNeverWritten : Obligations.HeldSlotIsNeverWritten := by
  unfold Obligations.HeldSlotIsNeverWritten
  intro s t hs hr hreset h
  obtain ⟨q, hmove⟩ := step_move hreset h
  refine ⟨hmove.slotOf_other (otherSlot_ne s.active), fun ht => ?_⟩
  have hkept := step_holdKept (hs.holding hr) hreset h ht
  exact ⟨hkept.readSlot, (stepKeepsTheInvariant s t hs h).held_full ht⟩

theorem atPorts_inv {s : State} (hs : s.Inv) (q : State) : (atPorts s q).Inv := hs.of_outside rfl

/-- `ACTIVE` changes in the two moves that flip. -/
theorem Move.active_changed {s t : State} (h : Move s t) (hs : s.Inv) (hne : t.active ≠ s.active) :
    (s.wIn = true ∨ s.rIn = true) ∧ t.wIn = false ∧ t.rIn = false ∧ t.concurrent = 0 ∧ t.active = otherSlot s.active ∧
      fullOf t s.active = true ∧ fullOf t t.active = false := by
  cases h with
  | publishFlip hmd hw hfill hlast roles _ =>
    have hout : s.rIn = false := (hs.roles.concurrent_eq_one_of_writing hw).1 hlast
    obtain ⟨hactive, hconcurrent, hfull, hwIn, hrIn, -⟩ := Roles.mk.inj roles
    refine ⟨.inl hw, hwIn, hrIn.trans hout, ?_, hactive, ?_, ?_⟩
    · simpa [State.roles, Roles.publish, hlast] using hconcurrent
    · simp [hfull, State.roles, Roles.publish]
    · simp [hfull, hactive, State.roles, Roles.publish]
  | releaseFlip hr hlast hpending roles _ =>
    have hout : s.wIn = false := (hs.roles.concurrent_eq_one_of_holding hr).1 hlast
    obtain ⟨hactive, hconcurrent, hfull, hwIn, hrIn, -⟩ := Roles.mk.inj roles
    refine ⟨.inr hr, hwIn.trans hout, hrIn, ?_, hactive, ?_, ?_⟩
    · simpa [State.roles, Roles.release, hlast] using hconcurrent
    · simp [hfull, State.roles, Roles.release]
    · simp [hfull, hactive, State.roles, Roles.release]
  | keep roles _ | push _ _ roles _ | start _ _ roles _ | publish _ _ _ _ roles _ | grant _ _ roles _ | release _ _ roles _ =>
    exact absurd (congrArg Roles.active roles) hne

/-- Settles O31 by the two moves that flip. -/
theorem activeChangesOnlyAsTheLastAgentLeaves : Obligations.ActiveChangesOnlyAsTheLastAgentLeaves := by
  unfold Obligations.ActiveChangesOnlyAsTheLastAgentLeaves
  intro s t hs hreset h hne
  obtain ⟨q, hmove⟩ := step_move hreset h
  exact hmove.active_changed (atPorts_inv hs q) hne

/-- A full bit is set by the two moves that publish. -/
theorem Move.full_set {s t : State} (h : Move s t) {x : Slot} (hempty : fullOf s x = false) (hset : fullOf t x = true) :
    x = s.active ∧ s.wIn = true ∧ s.fill = s.cfg.n ∧ t.wIn = false ∧ t.lastWValid = true ∧ t.lastW = x := by
  cases h with
  | publish _ hw hfill _ roles _ =>
    obtain ⟨-, -, hfull, hwIn, -, hvalid, hlast, -⟩ := Roles.mk.inj roles
    obtain rfl : s.active = x := by simpa [hfull, State.roles, hempty] using hset
    exact ⟨rfl, hw, hfill, hwIn, hvalid, hlast⟩
  | publishFlip _ hw hfill _ roles _ =>
    obtain ⟨-, -, hfull, hwIn, -, hvalid, hlast, -⟩ := Roles.mk.inj roles
    obtain rfl : s.active = x := by simpa [hfull, State.roles, Roles.publish] using hset
    exact ⟨rfl, hw, hfill, hwIn, hvalid, hlast⟩
  | release _ _ roles _ =>
    have hfull := congrFun (congrArg Roles.full roles) x
    simp_all [State.roles, Roles.release]
  | releaseFlip _ _ hpending roles _ =>
    obtain ⟨-, -, hfull, -⟩ := Roles.mk.inj roles
    obtain rfl : s.active = x := by simpa [hfull, State.roles, Roles.release] using hset
    simp [hpending] at hempty
  | keep roles _ | push _ _ roles _ | start _ _ roles _ | grant _ _ roles _ =>
    have hsame : fullOf t x = fullOf s x := congrFun (congrArg Roles.full roles) x
    simp [hsame, hempty] at hset

/-- The two moves that end a hold empty its slot. -/
theorem Move.full_of_hold_ended {s t : State} (h : Move s t) (hr : s.rIn = true) (ht : t.rIn = false) :
    fullOf t (readSlot s) = false := by
  cases h with
  | release _ _ roles _ =>
    obtain ⟨-, -, hfull, -⟩ := Roles.mk.inj roles
    simp [hfull, State.roles, readSlot]
  | releaseFlip _ _ _ roles _ =>
    obtain ⟨-, -, hfull, -⟩ := Roles.mk.inj roles
    simp [hfull, State.roles, Roles.release, readSlot]
  | grant hout _ _ _ => simp [hr] at hout
  | keep roles _ | push _ _ roles _ | start _ _ roles _ | publish _ _ _ _ roles _ | publishFlip _ _ _ _ roles _ =>
    have hstill : t.rIn = s.rIn := congrArg Roles.rIn roles
    simp [hstill, hr] at ht

/-- Settles O33 by the moves that publish and those that release. -/
theorem fullBitsAreSetOnlyByAPublish : Obligations.FullBitsAreSetOnlyByAPublish := by
  unfold Obligations.FullBitsAreSetOnlyByAPublish
  intro s t hs hreset h
  obtain ⟨q, hmove⟩ := step_move hreset h
  exact ⟨fun x => hmove.full_set, hmove.full_of_hold_ended⟩

/-- Settles O34: `C.START` grants only a full read slot (R118), and that holds the latest Window. -/
theorem grantedWindowIsTheLatest : Obligations.GrantedWindowIsTheLatest := by
  unfold Obligations.GrantedWindowIsTheLatest
  intro s t hs hr h ht
  obtain ⟨-, hnone, -⟩ := cStartFollowsItsRule s
  cases hfull : fullOf s (readSlot s) with
  | true => exact hs.roles.latest_of_grantable hr hfull
  | false =>
    rw [hnone hr hfull] at h
    cases h
    simp [hr] at ht

/-- Settles O37: `P.START` compares the write slot with the slot last published, which by the invariant is to ask whether a
Window waits in it; with the producer outside it waits for the consumer. -/
theorem missedDeadlineExactlyWhenTheFlipIsPending : Obligations.MissedDeadlineExactlyWhenTheFlipIsPending := by
  unfold Obligations.MissedDeadlineExactlyWhenTheFlipIsPending
  intro s t hs hmd hw h
  have hdetect : t.md = fullOf s s.active := (pStart_md hmd hw h).trans hs.full_active.symm
  rw [hdetect]
  exact ⟨Iff.rfl, hs.roles.held_of_waiting hw⟩

/-- After a Missed Deadline a step without reset ends a hold at most (R128). -/
theorem Move.stranded {s t : State} (h : Move s t) (hs : s.Inv) (hmd : s.md = true) :
    t.md = true ∧ t.wIn = true ∧ t.active = s.active ∧ slotOf t s.active = slotOf s s.active ∧
      (s.rIn = false → t.rIn = false) := by
  have hw := hs.md_inside hmd
  cases h with
  | keep roles slots =>
    obtain ⟨hactive, -, -, hwIn, hrIn, -, -, hmd'⟩ := Roles.mk.inj roles
    exact ⟨hmd'.trans hmd, hwIn.trans hw, hactive, slots.slotOf _, hrIn.trans⟩
  | release hr _ roles slots =>
    obtain ⟨hactive, -, -, hwIn, hrIn, -, -, hmd'⟩ := Roles.mk.inj roles
    exact ⟨hmd'.trans hmd, hwIn.trans hw, hactive, slots.slotOf _, fun _ => hrIn⟩
  | grant hout hfull _ _ =>
    have hheld := hs.md_read hmd
    simp [hfull, hout] at hheld
  | releaseFlip hr hlast _ _ _ =>
    have hout := (hs.roles.concurrent_eq_one_of_holding hr).1 hlast
    exact absurd hw (by simpa [State.roles] using hout)
  | push hrunning _ _ _ | start hrunning _ _ _ | publish hrunning _ _ _ _ _ | publishFlip hrunning _ _ _ _ _ =>
    simp [hmd] at hrunning

/-- Settles O39: of the moves, the ones open after a Missed Deadline; and the first check of the producer's three rules. -/
theorem missedDeadlineStrandsUntilReset : Obligations.MissedDeadlineStrandsUntilReset := by
  unfold Obligations.MissedDeadlineStrandsUntilReset
  refine ⟨fun s t hs hmd hreset h => ?_, fun s v hmd => ?_⟩
  · obtain ⟨q, hmove⟩ := step_move hreset h
    exact hmove.stranded (atPorts_inv hs q) hmd
  · exact ⟨(pStartFollowsItsRule s).1 hmd, (pPushFollowsItsRule v s).1 hmd, (pStopFollowsItsRule s).1 hmd⟩

end Sys2Proof.Machine

namespace Sys2Proof.Machine

/-! ## O35, O36, O38: what becomes of a published Window (spec/40_handoff.md R127, R129, R130)

The commands of each scenario have their role equations already (`pStop_roles_last` and its kin); the next `P.START` detects a
Missed Deadline exactly if the role equation reached says `Roles.same`. -/

/-- Settles O35: alone inside, the producer flips as it publishes, so the slot published is the read slot at the `P.START`. -/
theorem absentConsumerNeverStopsTheProducer : Obligations.AbsentConsumerNeverStopsTheProducer := by
  unfold Obligations.AbsentConsumerNeverStopsTheProducer
  intro s hs hr hw hmd hfill
  have hlast : s.concurrent = 1 := (hs.roles.concurrent_eq_one_of_writing hw).2 hr
  obtain ⟨t, hstop⟩ := everyCommandCompletesInOneStep.1 .pStop s
  obtain ⟨hactive, hconcurrent, hfull, hwIn, -, -, hlastW, hmd'⟩ :=
    Roles.mk.inj (pStop_roles_last hmd hw hfill hlast hstop)
  obtain ⟨u, hstart⟩ := everyCommandCompletesInOneStep.1 .pStart t
  obtain ⟨uactive, -, -, uwIn, -, -, -, umd⟩ := Roles.mk.inj (pStart_roles (hmd'.trans hmd) hwIn hstart)
  have hactive' : t.active = otherSlot s.active := hactive
  have hlastW' : t.lastW = s.active := hlastW
  refine ⟨t, u, hstop, hactive', ?_, ?_, hstart, ?_, uwIn, uactive.trans hactive', ?_⟩
  · simpa [State.roles, Roles.publish, hlast] using hconcurrent
  · simp [hfull, readSlot, hactive', State.roles, Roles.publish]
  · simp [umd, State.roles, Roles.same, hactive', hlastW']
  · calc slotOf u s.active = slotOf t s.active := exec_slots_other (by simp [hactive']) hstart
      _ = slotOf s s.active := (exec_slots hstop).slotOf s.active

theorem State.Inv.concurrent_ne_one {s : State} (hs : s.Inv) (hw : s.wIn = true) (hr : s.rIn = true) :
    s.concurrent ≠ 1 := by
  intro hlast
  have hout : s.rIn = false := (hs.roles.concurrent_eq_one_of_writing hw).1 hlast
  simp [hr] at hout

/-- Settles O36: the `P.STOP` leaves the consumer inside; the `C.END` is then the last one out and finds the publish
pending. -/
theorem deferredFlipIsDoneByCEnd : Obligations.DeferredFlipIsDoneByCEnd := by
  unfold Obligations.DeferredFlipIsDoneByCEnd
  intro s hs hr hw hmd hfill
  have hinside := hs.concurrent_ne_one hw hr
  obtain ⟨t, hstop⟩ := everyCommandCompletesInOneStep.1 .pStop s
  obtain ⟨tactive, -, tfull, twIn, trIn, -, tlastW, tmd⟩ := Roles.mk.inj (pStop_roles_inside hmd hw hfill hinside hstop)
  have tactive' : t.active = s.active := tactive
  have hpending : fullOf t t.active = true := by simp [tfull, tactive', State.roles]
  have tinv := exec_inv hs hstop
  have tlast : t.concurrent = 1 := (tinv.roles.concurrent_eq_one_of_holding (trIn.trans hr)).2 twIn
  obtain ⟨u, hend⟩ := everyCommandCompletesInOneStep.1 .cEnd t
  obtain ⟨uactive, -, ufull, uwIn, -, -, ulastW, umd⟩ :=
    Roles.mk.inj (cEnd_roles_pending (trIn.trans hr) tlast hpending hend)
  have uactive' : u.active = otherSlot s.active := uactive.trans (congrArg otherSlot tactive')
  have uread : readSlot u = s.active := by simp [readSlot, uactive']
  obtain ⟨v, hstart⟩ := everyCommandCompletesInOneStep.1 .pStart u
  obtain ⟨-, -, -, -, -, -, -, vmd⟩ := Roles.mk.inj (pStart_roles (umd.trans (tmd.trans hmd)) (uwIn.trans twIn) hstart)
  refine ⟨t, u, v, hstop, tactive', by simp [pendingFlip, hpending, tlast], hend, uactive', uread, ?_, hstart, ?_⟩
  · simp [ufull, uread, State.roles, Roles.release, tactive']
  · have ulastW' : u.lastW = s.active := ulastW.trans tlastW
    simp [vmd, State.roles, Roles.same, uactive', ulastW']

theorem SameSlots.trans {s u t : State} (hsu : SameSlots s u) (hut : SameSlots u t) : SameSlots s t :=
  ⟨hut.slot0.trans hsu.slot0, hut.slot1.trans hsu.slot1⟩

/-- From `s` to `t` the roles and the slots are the same. -/
structure Idled (s t : State) : Prop where
  roles : t.roles = s.roles
  slots : SameSlots s t

/-- With the producer outside and staying out, and the hold going on, a step moves nothing. -/
theorem Move.idled {s t : State} (h : Move s t) (hr : s.rIn = true) (hw : s.wIn = false) (ht : t.rIn = true)
    (htw : t.wIn = false) : Idled s t := by
  cases h with
  | keep roles slots => exact ⟨roles, slots⟩
  | start _ _ roles _ =>
    have hin : t.wIn = true := congrArg Roles.wIn roles
    simp [htw] at hin
  | grant hout _ _ _ => simp [hr] at hout
  | release _ _ roles _ =>
    have hout : t.rIn = false := congrArg Roles.rIn roles
    simp [ht] at hout
  | releaseFlip _ _ _ roles _ =>
    have hout : t.rIn = false := congrArg Roles.rIn roles
    simp [ht] at hout
  | push _ hin _ _ | publish _ hin _ _ _ _ | publishFlip _ hin _ _ _ _ => simp [hw] at hin

theorem Idled.trans {s u t : State} (hsu : Idled s u) (hut : Idled u t) : Idled s t :=
  ⟨hut.roles.trans hsu.roles, hsu.slots.trans hut.slots⟩

/-- The producer is outside, the hold goes on, and no reset is asserted. -/
def Waiting (s : State) : Prop := s.rIn = true ∧ s.wIn = false ∧ s.resetIn = false

theorem step_idled {s t : State} (hs : Waiting s) (ht : Waiting t) (h : step s = .next t) : Idled s t := by
  obtain ⟨hr, hw, hreset⟩ := hs
  obtain ⟨htr, htw, -⟩ := ht
  obtain ⟨q, hmove⟩ := step_move hreset h
  obtain ⟨hroles, hslot0, hslot1⟩ := hmove.idled hr hw htr htw
  exact ⟨hroles, hslot0, hslot1⟩

theorem run_idled {k : Nat} {s t : State} (hwait : ∀ j u, j ≤ k → Sys2Proof.core.run j s = .next u → Waiting u)
    (h : Sys2Proof.core.run k s = .next t) : Idled s t := by
  induction k generalizing s with
  | zero =>
    cases h
    exact ⟨rfl, rfl, rfl⟩
  | succ k ih =>
    obtain ⟨u, hstep⟩ := step_next s
    have hrest : ∀ j v, j ≤ k → Sys2Proof.core.run j u = .next v → Waiting v := fun j v hj hv =>
      hwait (j + 1) v (Nat.succ_le_succ hj) ((run_succ_of_step hstep j).trans hv)
    have hfirst : Idled s u := step_idled (hwait 0 s (Nat.zero_le _) rfl) (hrest 0 u (Nat.zero_le _) rfl) hstep
    exact hfirst.trans (ih hrest ((run_succ_of_step hstep k).symm.trans h))

/-- Settles O38: the `P.STOP` does not flip and the run moves nothing, so the `P.START` is handed the slot last published, and
then it clears nothing. -/
theorem lateConsumerCausesTheMissedDeadline : Obligations.LateConsumerCausesTheMissedDeadline := by
  unfold Obligations.LateConsumerCausesTheMissedDeadline
  intro k s t u hs hr hw hmd hfill hstop hhold hrun
  have hinside := hs.concurrent_ne_one hw hr
  obtain ⟨hroles, hslots⟩ := run_idled hhold hrun
  have hroles' : u.roles = s.roles.publish := hroles.trans (pStop_roles_inside hmd hw hfill hinside hstop)
  obtain ⟨uactive, -, -, uwIn, -, uvalid, ulastW, umd⟩ := Roles.mk.inj hroles'
  have hsame : sameSlot u = true := by
    have hagree : u.lastW = u.active := ulastW.trans uactive.symm
    have hvalid : u.lastWValid = true := uvalid
    simp [sameSlot, hvalid, hagree]
  obtain ⟨v, hstart⟩ := everyCommandCompletesInOneStep.1 .pStart u
  obtain ⟨vactive, -, -, vwIn, -, -, -, vmd⟩ := Roles.mk.inj (pStart_roles (umd.trans hmd) uwIn hstart)
  have hdetected : v.md = true := vmd.trans hsame
  have hstored : storedBy .pStart u = u := if_neg (by simp [hsame])
  have hstart_slots := exec_slots hstart
  rw [hstored] at hstart_slots
  have hstop_slots : SameSlots s t := exec_slots hstop
  obtain ⟨hslot0, hslot1⟩ := (hstop_slots.trans hslots).trans hstart_slots
  exact ⟨v, hstart, hdetected, vwIn, hdetected, hslot0, hslot1, vactive.trans uactive⟩

end Sys2Proof.Machine

namespace Sys2Proof.Machine

/-! ## O20: a Window pushed whole (spec/40_handoff.md R116, R131)

`Pushed xs s t` says what the pushes `xs` do from any `FILL`; it is shown by induction on `xs`, one push at a time. -/

/-- From `s` to `t` the samples `xs` are stored in the write slot from element `FILL` on; the other slot, the roles, the
spectrum and `OUT` stay. -/
structure Pushed (xs : List Word32) (s t : State) : Prop where
  fill : t.fill = s.fill + xs.length
  window : slotOf t s.active =
    (slotOf s s.active).take s.fill ++ xs.map sampleElement ++ (slotOf s s.active).drop (s.fill + xs.length)
  other : slotOf t (readSlot s) = slotOf s (readSlot s)
  roles : t.roles = s.roles
  spec : t.spec = s.spec
  out : t.out = s.out
  cfg : t.cfg = s.cfg

theorem pushed_nil (s : State) : Pushed [] s s := by
  constructor <;> simp

theorem Pushed.cons {x : Word32} {xs : List Word32} {s u t : State} (hroom : s.fill < (slotOf s s.active).length)
    (hu : Pushed [x] s u) (ht : Pushed xs u t) : Pushed (x :: xs) s t where
  fill := by
    rw [ht.fill, hu.fill, List.length_singleton, List.length_cons]
    omega
  window := by
    have hactive : u.active = s.active := congrArg Roles.active hu.roles
    have hfill : u.fill = ((slotOf s s.active).take s.fill ++ [x].map sampleElement).length := by
      simp [hu.fill, hroom.le]
    have hwindow := ht.window
    rw [hactive, hu.window, hfill, List.take_left, List.drop_length_add_append, List.drop_drop] at hwindow
    simpa [Nat.add_assoc, Nat.add_comm 1] using hwindow
  other := by
    have hread : readSlot u = readSlot s := congrArg (otherSlot ∘ Roles.active) hu.roles
    rw [← hu.other, ← hread, ht.other]
  roles := ht.roles.trans hu.roles
  spec := ht.spec.trans hu.spec
  out := ht.out.trans hu.out
  cfg := ht.cfg.trans hu.cfg

/-- A `P.PUSH` with room in the Window (R116). -/
theorem pPush_pushed {v : Word32} {s t : State} (hmd : s.md = false) (hw : s.wIn = true) (hfill : s.fill ≠ s.cfg.n)
    (hroom : s.fill < (slotOf s s.active).length) (h : exec (.pPush v) s = .next t) : Pushed [v] s t := by
  have hwindow : slotOf t s.active = (slotOf s s.active).set s.fill (sampleElement v) := by
    have hstored : storedBy (.pPush v) s = slotWrite s.active s.fill (sampleElement v) s := if_pos ⟨hmd, hw, hfill⟩
    rw [(exec_slots h).slotOf, hstored, slotOf_slotWrite, if_pos rfl]
  have hother : slotOf t (readSlot s) = slotOf s (readSlot s) := exec_slots_other (otherSlot_ne s.active) h
  rw [exec, execPPush, if_neg (by simp [hmd]), if_neg (by simp [hw]), if_neg hfill] at h
  cases h
  refine ⟨by simp, ?_, hother, ?_, by simp, by simp, by simp⟩
  · rw [hwindow, List.set_eq_take_append_cons_drop, if_pos hroom]
    simp
  · exact (roles_respond _ _).trans (roles_slotWrite s.active s.fill (sampleElement v) s)

theorem pushAll_cons {x : Word32} {s u : State} (h : exec (.pPush x) s = .next u) (xs : List Word32) :
    pushAll (x :: xs) s = pushAll xs u := by
  simp [pushAll, h]

theorem pushAll_pushed {xs : List Word32} {s : State} (hmd : s.md = false) (hw : s.wIn = true)
    (hlength : (slotOf s s.active).length = s.cfg.n) (hroom : s.fill + xs.length ≤ s.cfg.n) :
    ∃ t, pushAll xs s = .next t ∧ Pushed xs s t := by
  induction xs generalizing s with
  | nil => exact ⟨s, rfl, pushed_nil s⟩
  | cons x xs ih =>
    rw [List.length_cons] at hroom
    have hfill : s.fill < s.cfg.n := by omega
    obtain ⟨u, hpush⟩ := everyCommandCompletesInOneStep.1 (.pPush x) s
    have hu : Pushed [x] s u := pPush_pushed hmd hw hfill.ne (hlength ▸ hfill) hpush
    have hactive : u.active = s.active := congrArg Roles.active hu.roles
    have hlength' : (slotOf u u.active).length = u.cfg.n := by
      rw [hactive, hu.window, hu.cfg, ← hlength]
      simp
      omega
    have hroom' : u.fill + xs.length ≤ u.cfg.n := by
      rw [hu.fill, hu.cfg, List.length_singleton]
      omega
    obtain ⟨t, hrest, ht⟩ :=
      ih ((congrArg Roles.md hu.roles).trans hmd) ((congrArg Roles.wIn hu.roles).trans hw) hlength' hroom'
    exact ⟨t, (pushAll_cons hpush xs).trans hrest, hu.cons (hlength ▸ hfill) ht⟩

theorem stateWord_eq_of_roles {s t : State} (h : t.roles = s.roles) : stateWord t = stateWord s := by
  obtain ⟨hactive, hconcurrent, hfull, -⟩ := Roles.mk.inj h
  have hfull0 : t.full0 = s.full0 := congrFun hfull .s0
  have hfull1 : t.full1 = s.full1 := congrFun hfull .s1
  rw [stateWord, stateWord, hactive, hconcurrent, hfull0, hfull1]

/-- Settles O20: N pushes from `FILL = 0` replace the whole slot. -/
theorem pushedWindowIsStoredInOrder : Obligations.PushedWindowIsStoredInOrder := by
  unfold Obligations.PushedWindowIsStoredInOrder
  intro s xs hmd hw hfill hs hlength
  obtain ⟨t, hpush, ht⟩ := pushAll_pushed (xs := xs) hmd hw (slotOf_length hs s.active) (by simp [hfill, hlength])
  refine ⟨t, hpush, ?_, ?_, ht.other, ?_, ht.spec, ht.out, ?_, ?_⟩
  · rw [ht.window, hfill, hlength, Nat.zero_add, ← slotOf_length hs s.active]
    simp [sampleElement, fPosZero]
  · rw [ht.fill, hfill, hlength, Nat.zero_add]
  · exact stateWord_eq_of_roles ht.roles
  · exact (congrArg Roles.wIn ht.roles).trans hw
  · exact (congrArg Roles.md ht.roles).trans hmd

end Sys2Proof.Machine

namespace Sys2Proof.Machine

/-! ## O24: `C.FFT` (spec/41_fft.md R154 to R160) -/

theorem elemAt_map_range (f : Nat → Cplx) {n i : Nat} (h : i < n) : elemAt ((List.range n).map f) i = f i := by
  simp [elemAt, h]

theorem elemAt_append_left {a : List Cplx} {i : Nat} (h : i < a.length) (b : List Cplx) :
    elemAt (a ++ b) i = elemAt a i := List.getD_append _ _ _ _ h

theorem elemAt_append_right {a : List Cplx} {i : Nat} (h : a.length ≤ i) (b : List Cplx) :
    elemAt (a ++ b) i = elemAt b (i - a.length) := List.getD_append_right _ _ _ _ h

/-- Bins 0 to M - 1 of the transform are those of the combine step (R157). -/
theorem elemAt_realFft {c : Config} {i : Nat} (hi : i < c.m) (x : List Cplx) :
    elemAt (realFft c x) i = cadd (elemAt (halfFft c (evenHalf c x)) i)
      (cmul (twRead c i) (elemAt (halfFft c (oddHalf c x)) i)) := by
  rw [realFft, elemAt_append_left (by simpa [combineBins] using hi), combineBins, elemAt_map_range _ hi]

/-- Bin M is the Nyquist bin (R158). -/
theorem elemAt_realFft_last (c : Config) (x : List Cplx) :
    elemAt (realFft c x) c.m = csub (elemAt (halfFft c (evenHalf c x)) 0) (elemAt (halfFft c (oddHalf c x)) 0) := by
  rw [realFft, elemAt_append_right (by simp [combineBins])]
  simp [combineBins, nyquistBin, elemAt]

/-- Settles O24: `C.FFT` faults outside a hold; in one it writes `realFft` of the read slot. -/
theorem cFftFollowsItsRule : Obligations.CFftFollowsItsRule := by
  unfold Obligations.CFftFollowsItsRule
  intro s
  constructor
  · intro hr
    rw [exec, execCFft, if_pos (by simp [hr]), raiseFault_eq_faulted]
    rfl
  · intro hr
    refine ⟨realFft s.cfg (slotOf s (readSlot s)), _, _, ?_, rfl, rfl, realFft_length _ _,
      fun i hi => elemAt_realFft hi _, elemAt_realFft_last _ _⟩
    rw [exec, execCFft, if_neg (by simp [hr])]
    rfl

/-! ## O50: bit reversal (spec/41_fft.md R155, R156)

The permutation swaps each index with its reversal once, when it comes to the smaller of the two; that the reversal is an
involution makes one swap enough for both. -/

theorem bitrev_lt (l i : Nat) : bitrev l i < 2 ^ l := by
  induction l generalizing i with
  | zero => simp [bitrev]
  | succ l ih =>
    have hrest := ih (i / 2)
    have hbit : i % 2 * 2 ^ l ≤ 1 * 2 ^ l := Nat.mul_le_mul_right _ (by omega)
    rw [bitrev, pow_succ]
    omega

theorem testBit_bitrev {l b : Nat} (hb : b < l) (i : Nat) : (bitrev l i).testBit b = i.testBit (l - 1 - b) := by
  induction l generalizing i with
  | zero => omega
  | succ l ih =>
    rw [bitrev, mul_comm, Nat.testBit_two_pow_mul_add _ (bitrev_lt _ _)]
    split
    · next hbl =>
      rw [ih hbl, Nat.testBit_div_two]
      congr 1
      omega
    · next hbl =>
      obtain rfl : b = l := by omega
      simp

theorem bitrev_bitrev {l i : Nat} (hi : i < 2 ^ l) : bitrev l (bitrev l i) = i := by
  apply Nat.eq_of_testBit_eq
  intro b
  by_cases hb : b < l
  · rw [testBit_bitrev hb, testBit_bitrev (by omega)]
    congr 1
    omega
  · have hpow : 2 ^ l ≤ 2 ^ b := Nat.pow_le_pow_right (by omega) (by omega)
    rw [Nat.testBit_lt_two_pow ((bitrev_lt _ _).trans_le hpow), Nat.testBit_lt_two_pow (hi.trans_le hpow)]

theorem elemAt_set {a : List Cplx} {i : Nat} (hi : i < a.length) (x : Cplx) (k : Nat) :
    elemAt (a.set i x) k = if k = i then x else elemAt a k := by
  by_cases hk : k = i
  · subst hk
    simp [elemAt, hi]
  · simp [elemAt, hk, Ne.symm hk]

@[simp] theorem swapStep_length (l : Nat) (a : List Cplx) (i : Nat) : (swapStep l a i).length = a.length := by
  rw [swapStep]
  split <;> simp

/-- Where the step of index `i` takes the element at `k` from. -/
def swapIndex (l i k : Nat) : Nat :=
  if i < bitrev l i then (if k = bitrev l i then i else if k = i then bitrev l i else k) else k

theorem swapIndex_lt {l i k : Nat} (hi : i < 2 ^ l) (hk : k < 2 ^ l) : swapIndex l i k < 2 ^ l := by
  have hj := bitrev_lt l i
  unfold swapIndex
  split_ifs <;> assumption

theorem elemAt_swapStep {l : Nat} {a : List Cplx} (ha : a.length = 2 ^ l) {i : Nat} (hi : i < 2 ^ l) (k : Nat) :
    elemAt (swapStep l a i) k = elemAt a (swapIndex l i k) := by
  have hj := bitrev_lt l i
  rw [swapStep, swapIndex]
  split
  · rw [elemAt_set (by simpa [ha]), elemAt_set (by omega)]
    split_ifs <;> rfl
  · rfl

/-- Where the element at `k` comes from after the first `n` steps: every index below `n`, and every index whose reversal
is, has been served; the others have not been touched. -/
def servedIndex (l n k : Nat) : Nat := if k < n ∨ bitrev l k < n then bitrev l k else k

/-- Step `n` serves the index `n` and its reversal, unless an earlier step has done so. -/
theorem servedIndex_succ {l n k : Nat} (hn : n < 2 ^ l) (hk : k < 2 ^ l) :
    servedIndex l n (swapIndex l n k) = servedIndex l (n + 1) k := by
  have hnn : bitrev l (bitrev l n) = n := bitrev_bitrev hn
  have hkk : bitrev l (bitrev l k) = k := bitrev_bitrev hk
  unfold servedIndex swapIndex
  by_cases hkn : k = n
  · subst hkn
    split_ifs <;> omega
  by_cases hkj : k = bitrev l n
  · subst hkj
    split_ifs <;> omega
  · have hrev : bitrev l k ≠ n := fun h => hkj (by rw [← h, hkk])
    rw [if_neg hkj, if_neg hkn, ite_self]
    exact if_congr (by omega) rfl rfl

theorem elemAt_swapSteps {l : Nat} {a : List Cplx} (ha : a.length = 2 ^ l) {n : Nat} (hn : n ≤ 2 ^ l) :
    ((List.range n).foldl (swapStep l) a).length = 2 ^ l ∧
      ∀ k < 2 ^ l, elemAt ((List.range n).foldl (swapStep l) a) k = elemAt a (servedIndex l n k) := by
  induction n with
  | zero => simp [ha, servedIndex]
  | succ n ih =>
    obtain ⟨hlength, helem⟩ := ih (by omega)
    rw [List.range_succ, List.foldl_append, List.foldl_cons, List.foldl_nil]
    refine ⟨by rw [swapStep_length, hlength], fun k hk => ?_⟩
    rw [elemAt_swapStep hlength hn, helem _ (swapIndex_lt hn hk), servedIndex_succ hn hk]

/-- Settles O50: after all `2^l` steps every index has been served. -/
theorem bitReversalPermutes : Obligations.BitReversalPermutes := by
  unfold Obligations.BitReversalPermutes
  refine ⟨fun l i b _ hb => ⟨bitrev_lt l i, testBit_bitrev hb i⟩, fun l a i ha hi => ?_⟩
  obtain ⟨hlength, helem⟩ := elemAt_swapSteps ha le_rfl
  refine ⟨hlength, ?_⟩
  rw [bitrevPermute, helem i hi, servedIndex, if_pos (.inl hi)]

end Sys2Proof.Machine

namespace Sys2Proof.Machine

/-! ## O51: one pass (spec/41_fft.md R156, R163)

Each index belongs to one butterfly of the pass, so a butterfly done later finds its two elements untouched. -/

/-- The root of the butterfly at offset `j` of a sub-transform of length `2 h` (R156). -/
def passRoot (c : Config) (h j : Nat) : Cplx := twRead c (j * (c.n / (2 * h)))

theorem passElement_low {h j : Nat} (hj : j < h) (c : Config) (a : List Cplx) (b : Nat) :
    passElement c h a (b * (2 * h) + j) =
      cadd (elemAt a (b * (2 * h) + j)) (cmul (passRoot c h j) (elemAt a (b * (2 * h) + j + h))) := by
  have hmod : (b * (2 * h) + j) % (2 * h) = j := by
    rw [Nat.mul_add_mod_self_right, Nat.mod_eq_of_lt (by omega)]
  simp only [passElement, hmod, if_pos hj, passRoot]

theorem passElement_high {h j : Nat} (hj : j < h) (c : Config) (a : List Cplx) (b : Nat) :
    passElement c h a (b * (2 * h) + j + h) =
      csub (elemAt a (b * (2 * h) + j)) (cmul (passRoot c h j) (elemAt a (b * (2 * h) + j + h))) := by
  have hmod : (b * (2 * h) + j + h) % (2 * h) = j + h := by
    rw [Nat.add_assoc, Nat.mul_add_mod_self_right, Nat.mod_eq_of_lt (by omega)]
  simp only [passElement, hmod, if_neg (show ¬j + h < h by omega), passRoot, Nat.add_sub_cancel]

/-- Index `k` of the sub-transform at `st` is the lower or the upper end of one of its butterflies. -/
theorem low_or_high {st h k : Nat} (hst : st ≤ k) (hk : k < st + 2 * h) :
    ∃ j < h, k = st + j ∨ k = st + j + h := by
  by_cases hlow : k < st + h
  · exact ⟨k - st, by omega, .inl (by omega)⟩
  · exact ⟨k - st - h, by omega, .inr (by omega)⟩

/-- An element after the pass depends on the elements of its own sub-transform only. -/
theorem passElement_congr {h b k : Nat} {a a' : List Cplx}
    (heq : ∀ i, b * (2 * h) ≤ i → i < b * (2 * h) + 2 * h → elemAt a' i = elemAt a i)
    (hst : b * (2 * h) ≤ k) (hk : k < b * (2 * h) + 2 * h) (c : Config) : passElement c h a' k = passElement c h a k := by
  obtain ⟨j, hj, rfl | rfl⟩ := low_or_high hst hk
  · rw [passElement_low hj, passElement_low hj, heq _ (by omega) (by omega), heq _ (by omega) (by omega)]
  · rw [passElement_high hj, passElement_high hj, heq _ (by omega) (by omega), heq _ (by omega) (by omega)]

@[simp] theorem butterfly_length (w : Cplx) (i j : Nat) (a : List Cplx) : (butterfly w i j a).length = a.length := by
  simp [butterfly]

theorem elemAt_butterfly {i j : Nat} {a : List Cplx} (hi : i < a.length) (hj : j < a.length) (w : Cplx) (k : Nat) :
    elemAt (butterfly w i j a) k =
      if k = j then csub (elemAt a i) (cmul w (elemAt a j))
      else if k = i then cadd (elemAt a i) (cmul w (elemAt a j)) else elemAt a k := by
  rw [butterfly, elemAt_set (by simpa), elemAt_set hi]

/-- The first `n` butterflies of the sub-transform at `st` (R156). -/
def butterflies (c : Config) (h st n : Nat) (a : List Cplx) : List Cplx :=
  (List.range n).foldl (fun a j => butterfly (passRoot c h j) (st + j) (st + j + h) a) a

theorem butterflies_succ (c : Config) (h st n : Nat) (a : List Cplx) :
    butterflies c h st (n + 1) a = butterfly (passRoot c h n) (st + n) (st + n + h) (butterflies c h st n a) := by
  simp [butterflies, List.range_succ]

@[simp] theorem butterflies_length (c : Config) (h st n : Nat) (a : List Cplx) :
    (butterflies c h st n a).length = a.length := by
  induction n with
  | zero => rfl
  | succ n ih => rw [butterflies_succ, butterfly_length, ih]

/-- The first `n` butterflies write the first `n` indices of each half of their sub-transform and no other. -/
theorem elemAt_butterflies {h b n : Nat} {a : List Cplx} (hlength : b * (2 * h) + 2 * h ≤ a.length) (hn : n ≤ h)
    (c : Config) (k : Nat) :
    elemAt (butterflies c h (b * (2 * h)) n a) k =
      if (b * (2 * h) ≤ k ∧ k < b * (2 * h) + n) ∨ (b * (2 * h) + h ≤ k ∧ k < b * (2 * h) + h + n)
      then passElement c h a k else elemAt a k := by
  induction n generalizing k with
  | zero => rw [if_neg (by omega)]; rfl
  | succ n ih =>
    rw [butterflies_succ, elemAt_butterfly (by simp; omega) (by simp; omega)]
    simp only [ih (Nat.le_of_succ_le hn)]
    by_cases hhigh : k = b * (2 * h) + n + h
    · rw [if_pos hhigh, if_neg (by omega), if_neg (by omega), if_pos (by omega), hhigh, passElement_high (by omega)]
    by_cases hlow : k = b * (2 * h) + n
    · rw [if_neg hhigh, if_pos hlow, if_neg (by omega), if_neg (by omega), if_pos (by omega), hlow,
        passElement_low (by omega)]
    · rw [if_neg hhigh, if_neg hlow]
      exact if_congr (by omega) rfl rfl

/-- The first `m` sub-transforms of a pass (R156). -/
def butterflyBlocks (c : Config) (h m : Nat) (a : List Cplx) : List Cplx :=
  (List.range m).foldl (fun a b => butterflyBlock c h (b * (2 * h)) a) a

theorem butterflyBlocks_succ (c : Config) (h m : Nat) (a : List Cplx) :
    butterflyBlocks c h (m + 1) a = butterflies c h (m * (2 * h)) h (butterflyBlocks c h m a) := by
  rw [butterflyBlocks, List.range_succ, List.foldl_append]
  rfl

@[simp] theorem butterflyBlocks_length (c : Config) (h m : Nat) (a : List Cplx) :
    (butterflyBlocks c h m a).length = a.length := by
  induction m with
  | zero => rfl
  | succ m ih => rw [butterflyBlocks_succ, butterflies_length, ih]

/-- The first `m` sub-transforms write the indices below the next one and no other. -/
theorem elemAt_butterflyBlocks {h m : Nat} {a : List Cplx} (hm : m * (2 * h) ≤ a.length) (c : Config) (k : Nat) :
    elemAt (butterflyBlocks c h m a) k = if k < m * (2 * h) then passElement c h a k else elemAt a k := by
  induction m generalizing k with
  | zero => rw [if_neg (by omega)]; rfl
  | succ m ih =>
    rw [Nat.succ_mul] at hm ⊢
    have hbefore := ih (by omega)
    rw [butterflyBlocks_succ, elemAt_butterflies (by simpa using hm) le_rfl]
    by_cases hblock : m * (2 * h) ≤ k ∧ k < m * (2 * h) + 2 * h
    · rw [if_pos (by omega), if_pos hblock.2]
      exact passElement_congr (fun i hi _ => (hbefore i).trans (if_neg (by omega))) hblock.1 hblock.2 c
    · rw [if_neg (by omega), hbefore]
      exact if_congr (by omega) rfl rfl

/-- A list is known by its length and its elements. -/
theorem eq_map_range_of_elemAt {a : List Cplx} {f : Nat → Cplx} {n : Nat} (hlength : a.length = n)
    (helem : ∀ i < n, elemAt a i = f i) : a = (List.range n).map f := by
  apply List.ext_getElem (by simpa)
  intro i hi _
  simpa [elemAt, hi] using helem i (hlength ▸ hi)

/-- Settles O51: the sub-transforms of length `2 h` cover the list. -/
theorem passEqualsItsSimultaneousForm : Obligations.PassEqualsItsSimultaneousForm := by
  unfold Obligations.PassEqualsItsSimultaneousForm
  intro c h a _ hdvd hlength
  have hcover : c.m / (2 * h) * (2 * h) = c.m := Nat.div_mul_cancel hdvd
  have hblocks : butterflyPass c h a = butterflyBlocks c h (c.m / (2 * h)) a := rfl
  rw [hblocks]
  refine eq_map_range_of_elemAt (by simpa) fun k hk => ?_
  rw [elemAt_butterflyBlocks (by omega), if_pos (by omega)]

/-! ## O52: the passes are the recursion (spec/41_fft.md R153, R154, R156)

After `l` passes over the permuted list, block `b` of length `2^l` holds the recursive transform of the elements whose
index is `bitrev (L - l) b` modulo `2^(L - l)`. -/

/-- Every `s`-th element from index `r` on, `2^l` of them. -/
def decimated (l r s : Nat) (a : List Cplx) : List Cplx := (List.range (2 ^ l)).map fun m => elemAt a (r + m * s)

theorem decimated_zero_one {l : Nat} {a : List Cplx} (ha : a.length = 2 ^ l) : decimated l 0 1 a = a :=
  (eq_map_range_of_elemAt ha fun i _ => by simp).symm

theorem evens_decimated (l r s : Nat) (a : List Cplx) :
    ((List.range (2 ^ l)).map fun m => elemAt (decimated (l + 1) r s a) (2 * m)) = decimated l r (2 * s) a := by
  refine List.map_congr_left fun m hm => ?_
  rw [List.mem_range] at hm
  rw [decimated, elemAt_map_range _ (by omega)]
  congr 1
  ring

theorem odds_decimated (l r s : Nat) (a : List Cplx) :
    ((List.range (2 ^ l)).map fun m => elemAt (decimated (l + 1) r s a) (2 * m + 1)) = decimated l (r + s) (2 * s) a := by
  refine List.map_congr_left fun m hm => ?_
  rw [List.mem_range] at hm
  rw [decimated, elemAt_map_range _ (by omega)]
  congr 1
  ring

theorem recursiveDit_length {l : Nat} {a : List Cplx} (ha : a.length = 2 ^ l) (c : Config) :
    (recursiveDit c l a).length = 2 ^ l := by
  cases l with
  | zero => exact ha
  | succ l => simp [recursiveDit, pow_succ]; omega

theorem recursiveDit_decimated_low {l j : Nat} (hj : j < 2 ^ l) (c : Config) (r s : Nat) (a : List Cplx) :
    elemAt (recursiveDit c (l + 1) (decimated (l + 1) r s a)) j =
      cadd (elemAt (recursiveDit c l (decimated l r (2 * s) a)) j)
        (cmul (passRoot c (2 ^ l) j) (elemAt (recursiveDit c l (decimated l (r + s) (2 * s) a)) j)) := by
  rw [recursiveDit, evens_decimated, odds_decimated, elemAt_append_left (by simpa), elemAt_map_range _ hj, passRoot,
    pow_succ']

theorem recursiveDit_decimated_high {l j : Nat} (hj : j < 2 ^ l) (c : Config) (r s : Nat) (a : List Cplx) :
    elemAt (recursiveDit c (l + 1) (decimated (l + 1) r s a)) (j + 2 ^ l) =
      csub (elemAt (recursiveDit c l (decimated l r (2 * s) a)) j)
        (cmul (passRoot c (2 ^ l) j) (elemAt (recursiveDit c l (decimated l (r + s) (2 * s) a)) j)) := by
  rw [recursiveDit, evens_decimated, odds_decimated, elemAt_append_right (by simp), List.length_map, List.length_range,
    Nat.add_sub_cancel, elemAt_map_range _ hj, passRoot, pow_succ']

/-- The permutation and the first `l` passes of `HalfFFT` (R156). -/
def passes (c : Config) (l : Nat) (a : List Cplx) : List Cplx :=
  (List.range l).foldl (fun a p => butterflyPass c (2 ^ p) a) (bitrevPermute (c.log2n - 1) a)

theorem passes_succ (c : Config) (l : Nat) (a : List Cplx) :
    passes c (l + 1) a = butterflyPass c (2 ^ l) (passes c l a) := by
  simp [passes, List.range_succ]

theorem m_eq_two_pow {c : Config} {L : Nat} (hL : c.log2n = L + 1) : c.m = 2 ^ L := by
  simp [Config.m, Config.n, hL, pow_succ]

/-- The even blocks of one stage are the even elements of the blocks of the next. -/
theorem bitrev_even (d b : Nat) : bitrev (d + 1) (2 * b) = bitrev d b := by simp [bitrev]

/-- The odd blocks of one stage are the odd elements of the blocks of the next. -/
theorem bitrev_odd (d b : Nat) : bitrev (d + 1) (2 * b + 1) = bitrev d b + 2 ^ d := by
  rw [bitrev, show (2 * b + 1) % 2 = 1 by omega, show (2 * b + 1) / 2 = b by omega, Nat.one_mul, Nat.add_comm]

/-- `x` consists of `2^d` blocks of length `2^l`, each the recursive transform of its share of `a`. -/
structure BlocksTransformed (c : Config) (a x : List Cplx) (l d : Nat) : Prop where
  length : x.length = c.m
  elem : ∀ b < 2 ^ d, ∀ i < 2 ^ l,
    elemAt x (b * 2 ^ l + i) = elemAt (recursiveDit c l (decimated l (bitrev d b) (2 ^ d) a)) i

theorem bitrevPermute_blocks {c : Config} {d : Nat} {a : List Cplx} (hL : c.log2n = d + 1) (ha : a.length = c.m) :
    BlocksTransformed c a (bitrevPermute d a) 0 d where
  length := by
    rw [m_eq_two_pow hL]
    exact (bitReversalPermutes.2 d a 0 (ha.trans (m_eq_two_pow hL)) (by positivity)).1
  elem b hb i hi := by
    obtain rfl : i = 0 := by omega
    rw [pow_zero, mul_one, Nat.add_zero, (bitReversalPermutes.2 d a b (ha.trans (m_eq_two_pow hL)) hb).2]
    simp [recursiveDit, decimated, elemAt]

section
variable {c : Config} {a x : List Cplx} {l d : Nat} (hx : BlocksTransformed c a x l (d + 1))
include hx

theorem BlocksTransformed.even_block {b j : Nat} (hb : b < 2 ^ d) (hj : j < 2 ^ l) :
    elemAt x (b * (2 * 2 ^ l) + j) = elemAt (recursiveDit c l (decimated l (bitrev d b) (2 * 2 ^ d) a)) j := by
  rw [show b * (2 * 2 ^ l) + j = 2 * b * 2 ^ l + j by ring, hx.elem _ (by rw [pow_succ]; omega) j hj, bitrev_even,
    pow_succ']

theorem BlocksTransformed.odd_block {b j : Nat} (hb : b < 2 ^ d) (hj : j < 2 ^ l) :
    elemAt x (b * (2 * 2 ^ l) + j + 2 ^ l) =
      elemAt (recursiveDit c l (decimated l (bitrev d b + 2 ^ d) (2 * 2 ^ d) a)) j := by
  rw [show b * (2 * 2 ^ l) + j + 2 ^ l = (2 * b + 1) * 2 ^ l + j by ring, hx.elem _ (by rw [pow_succ]; omega) j hj,
    bitrev_odd, pow_succ']

/-- A pass combines the blocks in pairs. -/
theorem BlocksTransformed.pass (hL : c.log2n = l + 1 + d + 1) :
    BlocksTransformed c a (butterflyPass c (2 ^ l) x) (l + 1) d := by
  have hcover : 2 ^ d * (2 * 2 ^ l) = c.m := by rw [m_eq_two_pow hL]; ring
  have hpass := passEqualsItsSimultaneousForm c (2 ^ l) x (by positivity) (Dvd.intro_left _ hcover) hx.length
  refine ⟨by simp [hpass], fun b hb i hi => ?_⟩
  rw [pow_succ'] at hi ⊢
  have hplace : b * (2 * 2 ^ l) + i < c.m := by
    have hend : (b + 1) * (2 * 2 ^ l) ≤ 2 ^ d * (2 * 2 ^ l) := Nat.mul_le_mul_right _ hb
    rw [Nat.add_mul, hcover] at hend
    omega
  rw [hpass, elemAt_map_range _ hplace]
  obtain ⟨j, hj, hij⟩ := low_or_high (st := 0) (h := 2 ^ l) (Nat.zero_le i) (by omega)
  rw [Nat.zero_add] at hij
  rcases hij with rfl | rfl
  · rw [passElement_low hj, recursiveDit_decimated_low hj, hx.even_block hb hj, hx.odd_block hb hj]
  · rw [← Nat.add_assoc, passElement_high hj, recursiveDit_decimated_high hj, hx.even_block hb hj, hx.odd_block hb hj]

end

theorem passes_blocks {c : Config} {l d : Nat} {a : List Cplx} (hL : c.log2n = l + d + 1) (ha : a.length = c.m) :
    BlocksTransformed c a (passes c l a) l d := by
  induction l generalizing d with
  | zero =>
    have hpermute : passes c 0 a = bitrevPermute d a := by simp [passes, hL]
    rw [hpermute]
    exact bitrevPermute_blocks (by omega) ha
  | succ l ih =>
    rw [passes_succ]
    exact (ih (by omega)).pass hL

/-- Settles O52: after all passes there is one block, and it takes every element. -/
theorem halfTransformEqualsTheRecursion : Obligations.HalfTransformEqualsTheRecursion := by
  unfold Obligations.HalfTransformEqualsTheRecursion
  intro c a hlog ha
  have hL : c.log2n = c.log2n - 1 + 0 + 1 := by omega
  have hm : c.m = 2 ^ (c.log2n - 1) := m_eq_two_pow hL
  obtain ⟨hlength, helem⟩ := passes_blocks (d := 0) hL ha
  have hall : ∀ i < c.m, elemAt (halfFft c a) i = elemAt (recursiveDit c (c.log2n - 1) a) i := fun i hi => by
    have hblock := helem 0 (by simp) i (hm ▸ hi)
    rwa [bitrev, pow_zero, decimated_zero_one (ha.trans hm), Nat.zero_mul, Nat.zero_add] at hblock
  calc halfFft c a = (List.range c.m).map (elemAt (recursiveDit c (c.log2n - 1) a)) := eq_map_range_of_elemAt hlength hall
    _ = recursiveDit c (c.log2n - 1) a :=
      (eq_map_range_of_elemAt ((recursiveDit_length (ha.trans hm) c).trans hm.symm) fun _ _ => rfl).symm

end Sys2Proof.Machine

namespace Sys2Proof.Machine

/-! ## O46: NaNs, infinities and zeros (spec/41_fft.md R150, R161) -/

theorem f32Nan_iff (a : Word32) : f32Nan a ↔ fIsNan a = true := by
  rw [f32Nan, fIsNan, decide_eq_true_eq, fMag, infMag]
  omega

@[simp] theorem fIsNan_fNeg (a : Word32) : fIsNan (fNeg a) = fIsNan a := by simp [fIsNan]

@[simp] theorem fIsInf_fNeg (a : Word32) : fIsInf (fNeg a) = fIsInf a := by simp [fIsInf]

theorem fIsInf_of_f32Finite {a : Word32} (h : f32Finite a) : fIsInf a = false :=
  decide_eq_false ((f32Finite_iff a).1 h).ne

/-- A pattern packed from a magnitude up to infinity is no NaN. -/
theorem fIsNan_fPack (sign : Bool) {p : Nat} (hp : p ≤ infMag) : fIsNan (fPack sign p) = false := by
  have hlt : p < 2 ^ 31 := hp.trans_lt (by decide)
  rw [fIsNan, fMag_fPack sign hlt]
  exact decide_eq_false hp.not_gt

theorem fadd_of_nan {a b : Word32} (h : fIsNan a = true ∨ fIsNan b = true) : fadd a b = fNan := if_pos (by simpa using h)

theorem fsub_of_nan {a b : Word32} (h : fIsNan a = true ∨ fIsNan b = true) : fsub a b = fNan := fadd_of_nan (by simpa)

theorem fmul_of_nan {a b : Word32} (h : fIsNan a = true ∨ fIsNan b = true) : fmul a b = fNan := if_pos (by simpa using h)

theorem fdiv_of_nan {a b : Word32} (h : fIsNan a = true ∨ fIsNan b = true) : fdiv a b = fNan := if_pos (by simpa using h)

/-- A NaN, if it is one, is the canonical one (R150). -/
def CanonicalNan (r : Word32) : Prop := fIsNan r = true → r = fNan

theorem canonicalNan_fNan : CanonicalNan fNan := fun _ => rfl

theorem canonicalNan_of_not_nan {r : Word32} (h : fIsNan r = false) : CanonicalNan r := fun h' => by simp [h] at h'

theorem canonicalNan_fPack_infMag (sign : Bool) : CanonicalNan (fPack sign infMag) :=
  canonicalNan_of_not_nan (fIsNan_fPack sign le_rfl)

theorem canonicalNan_fPack_roundMag (sign : Bool) (num den : Nat) : CanonicalNan (fPack sign (roundMag num den)) :=
  canonicalNan_of_not_nan (fIsNan_fPack sign (roundMag_le num den))

theorem fadd_canonicalNan (a b : Word32) : CanonicalNan (fadd a b) := by
  by_cases hnan : fIsNan a = true ∨ fIsNan b = true
  · rw [fadd_of_nan hnan]
    exact canonicalNan_fNan
  obtain ⟨ha, hb⟩ : fIsNan a = false ∧ fIsNan b = false := by simpa using hnan
  rw [fadd, if_neg (by simpa using hnan)]
  dsimp only
  split_ifs
  · exact canonicalNan_fNan
  · exact canonicalNan_of_not_nan ha
  · exact canonicalNan_of_not_nan hb
  · exact canonicalNan_of_not_nan rfl
  · exact canonicalNan_of_not_nan rfl
  · exact canonicalNan_fPack_roundMag _ _ _

theorem fsub_canonicalNan (a b : Word32) : CanonicalNan (fsub a b) := fadd_canonicalNan a (fNeg b)

theorem fmul_canonicalNan (a b : Word32) : CanonicalNan (fmul a b) := by
  rw [fmul]
  split_ifs
  · exact canonicalNan_fNan
  · exact canonicalNan_fNan
  · exact canonicalNan_fPack_infMag _
  · exact canonicalNan_fPack_roundMag _ _ _

theorem fdiv_canonicalNan (a b : Word32) : CanonicalNan (fdiv a b) := by
  rw [fdiv]
  split_ifs
  · exact canonicalNan_fNan
  · exact canonicalNan_fNan
  · exact canonicalNan_fPack_infMag _
  · exact canonicalNan_of_not_nan (fIsNan_fPack _ (Nat.zero_le _))
  · exact canonicalNan_fNan
  · exact canonicalNan_fPack_infMag _
  · exact canonicalNan_fPack_roundMag _ _ _

@[simp] theorem fIsNan_f32Inf (s : Bool) : fIsNan (f32Inf s) = false := by cases s <;> rfl

@[simp] theorem fIsInf_f32Inf (s : Bool) : fIsInf (f32Inf s) = true := by cases s <;> rfl

@[simp] theorem fSign_f32Inf (s : Bool) : fSign (f32Inf s) = s := by cases s <;> rfl

@[simp] theorem fMag_f32Inf (s : Bool) : fMag (f32Inf s) = infMag := by cases s <;> rfl

@[simp] theorem fNeg_f32Inf (s : Bool) : fNeg (f32Inf s) = f32Inf (!s) := by cases s <;> rfl

@[simp] theorem fPack_infMag (s : Bool) : fPack s infMag = f32Inf s := by cases s <;> rfl

@[simp] theorem fIsNan_f32Zero (s : Bool) : fIsNan (f32Zero s) = false := by cases s <;> rfl

@[simp] theorem fIsInf_f32Zero (s : Bool) : fIsInf (f32Zero s) = false := by cases s <;> rfl

@[simp] theorem fSign_f32Zero (s : Bool) : fSign (f32Zero s) = s := by cases s <;> rfl

@[simp] theorem fMag_f32Zero (s : Bool) : fMag (f32Zero s) = 0 := by cases s <;> rfl

@[simp] theorem fPack_zero (s : Bool) : fPack s 0 = f32Zero s := by cases s <;> rfl

theorem infMag_ne_zero : infMag ≠ 0 := by decide

/-- Infinities of one direction add up to that infinity, of opposite directions to no number. -/
theorem fadd_f32Inf_f32Inf (s t : Bool) : fadd (f32Inf s) (f32Inf t) = if s = t then f32Inf s else fNan := by
  cases s <;> cases t <;> simp [fadd]

theorem fmul_f32Zero_f32Inf (s t : Bool) : fmul (f32Zero s) (f32Inf t) = fNan := by simp [fmul]

theorem fmul_f32Inf_f32Zero (s t : Bool) : fmul (f32Inf t) (f32Zero s) = fNan := by simp [fmul]

theorem fmul_f32Inf_f32Inf (s t : Bool) : fmul (f32Inf s) (f32Inf t) = f32Inf (s ^^ t) := by
  simp [fmul, infMag_ne_zero]

theorem fdiv_f32Zero_f32Zero (s t : Bool) : fdiv (f32Zero s) (f32Zero t) = fNan := by simp [fdiv]

theorem fdiv_f32Inf_f32Inf (s t : Bool) : fdiv (f32Inf s) (f32Inf t) = fNan := by simp [fdiv]

section
variable {a : Word32} (s : Bool) (ha : f32Finite a)
include ha

theorem fadd_f32Inf_finite : fadd (f32Inf s) a = f32Inf s := by
  simp [fadd, fIsNan_of_f32Finite ha, fIsInf_of_f32Finite ha]

theorem fadd_finite_f32Inf : fadd a (f32Inf s) = f32Inf s := by
  simp [fadd, fIsNan_of_f32Finite ha, fIsInf_of_f32Finite ha]

theorem f32Finite_fNeg : f32Finite (fNeg a) := by rwa [f32Finite_iff, fMag_fNeg, ← f32Finite_iff]

theorem fdiv_finite_f32Inf : fdiv a (f32Inf s) = f32Zero (a.msb ^^ s) := by
  simp [fdiv, fIsNan_of_f32Finite ha, fIsInf_of_f32Finite ha, msb_eq_fSign]

theorem fdiv_f32Inf_finite : fdiv (f32Inf s) a = f32Inf (a.msb ^^ s) := by
  simp [fdiv, fIsNan_of_f32Finite ha, fIsInf_of_f32Finite ha, msb_eq_fSign, Bool.xor_comm]

variable (h0 : f32Value a ≠ 0)
include h0

theorem fdiv_finite_f32Zero : fdiv a (f32Zero s) = f32Inf (a.msb ^^ s) := by
  have hmag : fMag a ≠ 0 := mt f32Value_eq_zero.2 h0
  simp [fdiv, fIsNan_of_f32Finite ha, fIsInf_of_f32Finite ha, msb_eq_fSign, hmag]

theorem fmul_finite_f32Inf : fmul a (f32Inf s) = f32Inf (a.msb ^^ s) := by
  have hmag : fMag a ≠ 0 := mt f32Value_eq_zero.2 h0
  simp [fmul, fIsNan_of_f32Finite ha, msb_eq_fSign, hmag, infMag_ne_zero]

theorem fmul_f32Inf_finite : fmul (f32Inf s) a = f32Inf (a.msb ^^ s) := by
  have hmag : fMag a ≠ 0 := mt f32Value_eq_zero.2 h0
  simp [fmul, fIsNan_of_f32Finite ha, msb_eq_fSign, hmag, infMag_ne_zero, Bool.xor_comm]

end

/-- Settles O46, clause by clause from the laws above. -/
theorem nanResultsAreCanonical : Obligations.NanResultsAreCanonical := by
  unfold Obligations.NanResultsAreCanonical
  refine ⟨fun a b h => ?_, fun a b r hr h => ?_, fun s => ?_, fun s t => ?_, fun a s ha => ?_, fun a s ha h0 => ?_⟩
  · rw [f32Nan_iff, f32Nan_iff] at h
    exact ⟨fadd_of_nan h, fsub_of_nan h, fmul_of_nan h, fdiv_of_nan h⟩
  · rw [f32Nan_iff] at h
    simp only [List.mem_cons, List.not_mem_nil, or_false] at hr
    obtain rfl | rfl | rfl | rfl := hr
    · exact fadd_canonicalNan a b h
    · exact fsub_canonicalNan a b h
    · exact fmul_canonicalNan a b h
    · exact fdiv_canonicalNan a b h
  · simp [fsub, fadd_f32Inf_f32Inf, fNan]
  · exact ⟨fmul_f32Zero_f32Inf s t, fmul_f32Inf_f32Zero s t, fmul_f32Inf_f32Inf s t, fdiv_f32Zero_f32Zero s t,
      fdiv_f32Inf_f32Inf s t⟩
  · refine ⟨fadd_f32Inf_finite s ha, fadd_finite_f32Inf s ha, fadd_f32Inf_finite s (f32Finite_fNeg ha), ?_,
      fdiv_finite_f32Inf s ha, fdiv_f32Inf_finite s ha⟩
    rw [fsub, fNeg_f32Inf, fadd_finite_f32Inf (!s) ha]
  · exact ⟨fdiv_finite_f32Zero s ha h0, fmul_finite_f32Inf s ha h0, fmul_f32Inf_finite s ha h0⟩

/-! ## O53: NaNs of the spectrum (spec/41_fft.md R161)

Each part of a bin is the result of an `fadd` or an `fsub`, so it is canonical whatever its operands are. -/

/-- Both parts are canonical where they are NaNs. -/
def CanonicalBin (b : Cplx) : Prop := CanonicalNan b.re ∧ CanonicalNan b.im

theorem cadd_canonicalBin (u t : Cplx) : CanonicalBin (cadd u t) := ⟨fadd_canonicalNan _ _, fadd_canonicalNan _ _⟩

theorem csub_canonicalBin (u t : Cplx) : CanonicalBin (csub u t) := ⟨fsub_canonicalNan _ _, fsub_canonicalNan _ _⟩

theorem realFft_canonicalBin (c : Config) (x : List Cplx) : ∀ b ∈ realFft c x, CanonicalBin b := by
  intro b hb
  rw [realFft, List.mem_append] at hb
  rcases hb with hb | hb
  · obtain ⟨i, -, rfl⟩ := List.mem_map.1 hb
    exact cadd_canonicalBin _ _
  · rw [List.mem_singleton.1 hb]
    exact csub_canonicalBin _ _

theorem canonicalSpectrum_of_eq {s t : State} (hspec : t.spec = s.spec) (hvalid : t.specValid = s.specValid)
    (hs : s.CanonicalSpectrum) : t.CanonicalSpectrum := by
  rwa [State.CanonicalSpectrum, hspec, hvalid]

/-- A reset leaves no valid spectrum (spec/70_reset_and_hazards.md R251). -/
theorem applyReset_canonicalSpectrum (s : State) : (applyReset s).CanonicalSpectrum := by
  intro hvalid
  simp [applyReset, State.initial] at hvalid

theorem raiseFault_canonicalSpectrum (f : FaultCode) {s : State} (hs : s.CanonicalSpectrum) :
    (raiseFault f s).CanonicalSpectrum := canonicalSpectrum_of_eq (by simp) (by simp) hs

theorem Taken.canonicalSpectrum {p : Port} {w : Word64} {s u : State} (h : Taken p w s u) (hs : s.CanonicalSpectrum) :
    u.CanonicalSpectrum := by
  rw [h.frame]
  exact canonicalSpectrum_of_eq rfl rfl hs

/-- Only `C.FFT` writes the spectrum, and it writes canonical bins. -/
theorem exec_canonicalSpectrum {i : Instr} {s t : State} (hs : s.CanonicalSpectrum) (h : exec i s = .next t) :
    t.CanonicalSpectrum := by
  have hfault : ∀ f, (raiseFault f s).CanonicalSpectrum := fun f => raiseFault_canonicalSpectrum f hs
  cases i with
  | nop =>
    cases h
    exact canonicalSpectrum_of_eq (by simp) (by simp) hs
  | pStart =>
    refine of_guard hfault h fun _ h => ?_
    refine of_guard hfault h fun _ h => ?_
    cases h
    cases sameSlot s <;> exact canonicalSpectrum_of_eq (by simp) (by simp) hs
  | pPush v =>
    refine of_guard hfault h fun _ h => ?_
    refine of_guard hfault h fun _ h => ?_
    refine of_guard hfault h fun _ h => ?_
    cases h
    exact canonicalSpectrum_of_eq (by simp) (by simp) hs
  | pStop =>
    refine of_guard hfault h fun _ h => ?_
    refine of_guard hfault h fun _ h => ?_
    refine of_guard hfault h fun _ h => ?_
    cases h
    exact canonicalSpectrum_of_eq (by simp) (by simp) hs
  | cStart =>
    refine of_guard hfault h fun _ h => ?_
    split at h <;> cases h <;> exact canonicalSpectrum_of_eq (by simp) (by simp) hs
  | cFft =>
    refine of_guard hfault h fun hr _ => ?_
    intro _
    rw [cFft_spec (by simpa using hr) h]
    exact realFft_canonicalBin _ _
  | cEnd =>
    refine of_guard hfault h fun _ h => ?_
    cases h
    exact canonicalSpectrum_of_eq (by simp) (by simp) hs
  | cCompress =>
    refine of_guard hfault h fun _ h => ?_
    cases h
    exact canonicalSpectrum_of_eq (by simp) (by simp) hs
  | rdStatus sel =>
    simp only [exec, execRdStatus] at h
    split at h <;> cases h
    · exact hfault _
    · exact canonicalSpectrum_of_eq (by simp) (by simp) hs

/-- Settles O53: a step is a reset, or holds, or takes a word and then faults or runs a command. -/
theorem stepKeepsSpectrumNansCanonical : Obligations.StepKeepsSpectrumNansCanonical := by
  unfold Obligations.StepKeepsSpectrumNansCanonical
  intro s t hs h
  rcases step_cases h with ⟨-, rfl⟩ | ⟨-, -, -, rfl⟩ | ⟨p, w, u, -, -, htaken, ⟨f, -, rfl⟩ | ⟨i, -, hexec⟩⟩
  · exact applyReset_canonicalSpectrum s
  · exact hs
  · exact raiseFault_canonicalSpectrum f (htaken.canonicalSpectrum hs)
  · exact exec_canonicalSpectrum (htaken.canonicalSpectrum hs) hexec

end Sys2Proof.Machine

namespace Sys2Proof.Machine

/-! ## O43, O44, O45: rounding to nearest, ties to even (spec/41_fft.md R150)

A real magnitude `x`, in units of 2^-149, is rounded to the magnitude pattern `p` whose value is nearest. `NearestMag` says so
by the midpoints between `p` and the other patterns. It is shown of what `roundMag` computes (`roundMag_nearest`), and what
`RoundsTo` asks follows from it for either sign (`roundsTo_fPack`). Overflow is no case of its own in `NearestMag`: there
the patterns go on past infinity, and the pattern packed is the lesser of `p` and infinity's. -/

/-- `p` is the pattern nearest `x`, even where a midpoint is met. -/
structure NearestMag (x : ℝ) (p : ℕ) : Prop where
  below : ∀ q < p, (magUnits q : ℝ) + magUnits p ≤ 2 * x
  above : ∀ q, p < q → 2 * x ≤ (magUnits p : ℝ) + magUnits q
  tie : ∀ q ≠ p, (magUnits p : ℝ) + magUnits q = 2 * x → p % 2 = 0

theorem magUnits_mono : StrictMono magUnits := strictMono_nat_of_lt_succ magUnits_lt_succ

theorem magUnits_cast_mono : StrictMono fun p => (magUnits p : ℝ) := fun _ _ h => Nat.cast_lt.2 (magUnits_mono h)

@[simp] theorem magUnits_zero : magUnits 0 = 0 := rfl

/-- A significand of `sh` bits above 2^-149, as a pattern; 2^24 carries into the next exponent by itself. -/
theorem magUnits_sig {r sh : ℕ} (hr : r ≤ 2 ^ 24) (hnormal : sh = 0 ∨ 2 ^ 23 ≤ r) :
    magUnits (r + sh * 2 ^ 23) = r * 2 ^ sh := by
  unfold magUnits
  by_cases hsub : r < 2 ^ 23
  · obtain rfl : sh = 0 := by omega
    rw [if_pos (by omega)]
    simp
  rw [if_neg (by omega)]
  by_cases hcarry : r = 2 ^ 24
  · subst hcarry
    rw [show (2 ^ 24 + sh * 2 ^ 23) / 2 ^ 23 - 1 = sh + 1 by omega, show (2 ^ 24 + sh * 2 ^ 23) % 2 ^ 23 = 0 by omega]
    ring
  · rw [show (r + sh * 2 ^ 23) / 2 ^ 23 - 1 = sh by omega,
      show 2 ^ 23 + (r + sh * 2 ^ 23) % 2 ^ 23 = r by omega]

/-- Only the midpoints to the two neighbours matter. -/
theorem nearestMag_of_neighbours {x : ℝ} {p : ℕ}
    (hpred : ∀ q, q + 1 = p → (magUnits q : ℝ) + magUnits p ≤ 2 * x ∧ ((magUnits q : ℝ) + magUnits p = 2 * x → p % 2 = 0))
    (hsucc : 2 * x ≤ (magUnits p : ℝ) + magUnits (p + 1))
    (htie : 2 * x = (magUnits p : ℝ) + magUnits (p + 1) → p % 2 = 0) : NearestMag x p := by
  have hbelow : ∀ q < p, ∃ r, r + 1 = p ∧ (magUnits q : ℝ) ≤ magUnits r := fun q hq =>
    ⟨p - 1, by omega, magUnits_cast_mono.monotone (by omega)⟩
  have habove : ∀ q, p < q → (magUnits (p + 1) : ℝ) ≤ magUnits q := fun q hq => magUnits_cast_mono.monotone hq
  refine ⟨fun q hq => ?_, fun q hq => ?_, fun q hq heq => ?_⟩
  · obtain ⟨r, hr, hle⟩ := hbelow q hq
    linarith [(hpred r hr).1]
  · linarith [habove q hq]
  · rcases hq.lt_or_gt with hlt | hgt
    · obtain ⟨r, hr, hle⟩ := hbelow q hlt
      obtain ⟨hmid, heven⟩ := hpred r hr
      exact heven (by linarith)
    · exact htie (by linarith [habove q hgt])

theorem NearestMag.dist_le {x : ℝ} {p : ℕ} (h : NearestMag x p) (q : ℕ) :
    |(magUnits p : ℝ) - x| ≤ |(magUnits q : ℝ) - x| := by
  rcases lt_trichotomy q p with hlt | rfl | hgt
  · have hmid := h.below q hlt
    have hmono := magUnits_cast_mono hlt
    calc |(magUnits p : ℝ) - x| ≤ x - magUnits q := abs_le.2 ⟨by linarith, by linarith⟩
      _ ≤ |(magUnits q : ℝ) - x| := by rw [abs_sub_comm]; exact le_abs_self _
  · rfl
  · have hmid := h.above q hgt
    have hmono := magUnits_cast_mono hgt
    calc |(magUnits p : ℝ) - x| ≤ magUnits q - x := abs_le.2 ⟨by linarith, by linarith⟩
      _ ≤ |(magUnits q : ℝ) - x| := le_abs_self _

theorem NearestMag.even_of_dist_eq {x : ℝ} {p q : ℕ} (h : NearestMag x p)
    (heq : |(magUnits q : ℝ) - x| = |(magUnits p : ℝ) - x|) (hne : q ≠ p) : p % 2 = 0 := by
  rcases abs_eq_abs.1 heq with hsame | hopposite
  · exact absurd (magUnits_cast_mono.injective (by linarith)) hne
  · exact h.tie q hne (by linarith)

/-! ### The sign -/

/-- The sign as a factor. -/
def signFactor (s : Bool) : ℝ := if s then -1 else 1

theorem signFactor_xor (s t : Bool) : signFactor (s ^^ t) = signFactor s * signFactor t := by
  cases s <;> cases t <;> simp [signFactor]

theorem signFactor_ne_zero (s : Bool) : signFactor s ≠ 0 := by cases s <;> simp [signFactor]

theorem signFactor_xor_eq_div (s t : Bool) : signFactor (s ^^ t) = signFactor s / signFactor t := by
  cases s <;> cases t <;> simp [signFactor]

theorem signFactor_of_ne {s t : Bool} (h : t ≠ s) : signFactor t = -signFactor s := by
  cases s <;> cases t <;> simp_all [signFactor]

@[simp] theorem abs_signFactor (s : Bool) : |signFactor s| = 1 := by cases s <;> simp [signFactor]

/-- The value of a finite pattern: its sign and its magnitude. -/
theorem f32Value_eq_signFactor (a : Word32) :
    (f32Value a : ℝ) = signFactor (fSign a) * (magUnits (fMag a) : ℝ) / 2 ^ 149 := by
  rw [f32Value_eq, fUnits, signFactor]
  split <;> push_cast <;> ring

/-- Two values of one sign are as far apart as their magnitudes, of two signs as far as the sum. -/
theorem dist_signed (s t : Bool) (v x : ℝ) :
    |signFactor t * v / 2 ^ 149 - signFactor s * x / 2 ^ 149| = (if t = s then |v - x| else |v + x|) / 2 ^ 149 := by
  rw [← sub_div, abs_div, abs_of_pos (show (0 : ℝ) < 2 ^ 149 by positivity)]
  congr 1
  split_ifs with h
  · rw [h, ← mul_sub, abs_mul, abs_signFactor, one_mul]
  · rw [signFactor_of_ne h, neg_mul, ← neg_add', abs_neg, ← mul_add, abs_mul, abs_signFactor, one_mul]

/-! ### From the midpoints to `RoundsTo` -/

/-- The greatest finite pattern is odd, and the midpoint between it and infinity's pattern is the bound of overflow. -/
theorem nearestMag_lt_infMag_iff {x : ℝ} {p : ℕ} (h : NearestMag x p) : p < infMag ↔ x < (2 ^ 25 - 1) * 2 ^ 252 := by
  have hmax : (magUnits (infMag - 1) : ℝ) = (2 ^ 24 - 1) * 2 ^ 253 := by
    rw [show infMag - 1 = (2 ^ 24 - 1) + 253 * 2 ^ 23 by decide, magUnits_sig (by norm_num) (.inr (by norm_num))]
    norm_num
  have hinf : (magUnits infMag : ℝ) = 2 ^ 24 * 2 ^ 253 := by
    rw [show infMag = 2 ^ 24 + 253 * 2 ^ 23 by decide, magUnits_sig le_rfl (.inr (by norm_num))]
    norm_num
  constructor
  · intro hp
    have hle : (magUnits p : ℝ) ≤ magUnits (infMag - 1) := magUnits_cast_mono.monotone (by omega)
    have habove := h.above infMag hp
    refine lt_of_le_of_ne (by linarith) fun hx => ?_
    have heven := h.tie infMag hp.ne' (by linarith)
    have heq : p = infMag - 1 := magUnits_cast_mono.injective (show (magUnits p : ℝ) = magUnits (infMag - 1) by linarith)
    rw [heq] at heven
    exact absurd heven (by decide)
  · intro hx
    by_contra hp
    have hle : (magUnits infMag : ℝ) ≤ magUnits p := magUnits_cast_mono.monotone (by omega)
    have hbelow := h.below (infMag - 1) (by unfold infMag at hp ⊢; omega)
    linarith

theorem toNat_fPack (s : Bool) {p : ℕ} (hp : p < 2 ^ 31) : (fPack s p).toNat = (if s then 2 ^ 31 else 0) + p := by
  rw [toNat_eq_sign_mag, fSign_fPack s hp, fMag_fPack s hp]

/-- A finite nearest pattern is nearest among the patterns of both signs: one of the other sign is no nearer than zero. -/
theorem dist_fPack {x : ℝ} (hx : 0 ≤ x) {p : ℕ} (h : NearestMag x p) (hp : p < infMag) (s : Bool) (c : Word32) :
    |(f32Value (fPack s p) : ℝ) - signFactor s * x / 2 ^ 149| ≤ |(f32Value c : ℝ) - signFactor s * x / 2 ^ 149| ∧
    (|(f32Value c : ℝ) - signFactor s * x / 2 ^ 149| = |(f32Value (fPack s p) : ℝ) - signFactor s * x / 2 ^ 149| →
      f32Value c ≠ f32Value (fPack s p) → p % 2 = 0) := by
  have hlt : p < 2 ^ 31 := hp.trans (by decide)
  have hb : (f32Value (fPack s p) : ℝ) = signFactor s * (magUnits p : ℝ) / 2 ^ 149 := by
    rw [f32Value_eq_signFactor, fSign_fPack s hlt, fMag_fPack s hlt]
  have hc := f32Value_eq_signFactor c
  have hnonneg : (0 : ℝ) ≤ magUnits (fMag c) := Nat.cast_nonneg _
  rw [← (Rat.cast_injective (α := ℝ)).ne_iff, hb, hc, dist_signed, dist_signed, if_pos rfl,
    div_le_div_iff_of_pos_right (by positivity), div_left_inj' (by positivity)]
  by_cases hsign : fSign c = s
  · rw [if_pos hsign, hsign]
    refine ⟨h.dist_le _, fun heq hne => h.even_of_dist_eq heq ?_⟩
    rintro rfl
    exact hne rfl
  · have hzero := h.dist_le 0
    rw [magUnits_zero, Nat.cast_zero, zero_sub, abs_neg, abs_of_nonneg hx] at hzero
    rw [if_neg hsign, abs_of_nonneg (add_nonneg hnonneg hx)]
    refine ⟨by linarith, fun heq hne => ?_⟩
    have hc0 : (magUnits (fMag c) : ℝ) = 0 := by linarith
    refine h.even_of_dist_eq (q := 0) ?_ ?_
    · rw [magUnits_zero, Nat.cast_zero, zero_sub, abs_neg, abs_of_nonneg hx]
      linarith
    · rintro rfl
      exact hne (by simp [hc0])

/-- A magnitude rounded by its midpoints, cut off at infinity and given a sign, is the signed value rounded (R150). -/
theorem roundsTo_fPack {x : ℝ} (hx : 0 ≤ x) {p : ℕ} (h : NearestMag x p) (s : Bool) :
    RoundsTo (signFactor s * x / 2 ^ 149) (fPack s (min p infMag)) := by
  have habs : |signFactor s * x / 2 ^ 149| = x / 2 ^ 149 := by
    rw [abs_div, abs_mul, abs_signFactor, one_mul, abs_of_nonneg hx, abs_of_pos (by positivity)]
  have hbound : x / 2 ^ 149 < 2 ^ 128 - 2 ^ 103 ↔ p < infMag := by
    rw [nearestMag_lt_infMag_iff h, div_lt_iff₀ (by positivity)]
    norm_num
  unfold RoundsTo
  rw [habs]
  by_cases hp : p < infMag
  · left
    have hlt : p < 2 ^ 31 := hp.trans (by decide)
    rw [Nat.min_eq_left hp.le]
    refine ⟨hbound.2 hp, (f32Finite_iff _).2 (by rwa [fMag_fPack s hlt]), fun c _ => (dist_fPack hx h hp s c).1,
      fun c _ heq hne => ?_⟩
    have heven := (dist_fPack hx h hp s c).2 heq hne
    rw [toNat_fPack s hlt]
    cases s <;> simp <;> omega
  · right
    have hlarge : 2 ^ 128 - 2 ^ 103 ≤ x / 2 ^ 149 := not_lt.1 (mt hbound.1 hp)
    have hpos : (0 : ℝ) < x := by
      have := lt_of_lt_of_le (show (0 : ℝ) < 2 ^ 128 - 2 ^ 103 by norm_num) hlarge
      rwa [lt_div_iff₀ (by positivity), zero_mul] at this
    rw [Nat.min_eq_right (not_lt.1 hp), fPack_infMag]
    refine ⟨hlarge, ?_⟩
    cases s
    · rw [if_neg (not_lt.2 (by simp [signFactor]; positivity))]; rfl
    · rw [if_pos (by simp [signFactor, neg_div]; positivity)]; rfl

/-! ### What `roundMag` computes -/

/-- `r` is within half of `num / den`, and even where it is half away. -/
structure NearestWhole (num den r : ℕ) : Prop where
  upper : 2 * num ≤ (2 * r + 1) * den
  lower : 2 * r * den ≤ 2 * num + den
  upper_tie : 2 * num = (2 * r + 1) * den → r % 2 = 0
  lower_tie : 2 * r * den = 2 * num + den → r % 2 = 0

theorem nearestEven_nearestWhole (num : ℕ) {den : ℕ} (hden : 0 < den) : NearestWhole num den (nearestEven num den) := by
  have hdiv := Nat.div_add_mod num den
  have hmod := Nat.mod_lt num hden
  unfold nearestEven
  dsimp only
  generalize num / den = q at *
  generalize num % den = r at *
  rw [mul_comm] at hdiv
  split_ifs with h
  · have hupper : (2 * (q + 1) + 1) * den = 2 * (q * den) + 3 * den := by ring
    have hlower : 2 * (q + 1) * den = 2 * (q * den) + 2 * den := by ring
    constructor <;> omega
  · have hupper : (2 * q + 1) * den = 2 * (q * den) + den := by ring
    have hlower : 2 * q * den = 2 * (q * den) := by ring
    constructor <;> omega

theorem NearestWhole.le {num den r m : ℕ} (h : NearestWhole num den r) (hlt : num < m * den) : r ≤ m := by
  have hlower := h.lower
  by_contra hr
  nlinarith

theorem NearestWhole.ge {num den r m : ℕ} (h : NearestWhole num den r) (hden : 0 < den) (hle : m * den ≤ num) : m ≤ r := by
  have hupper := h.upper
  by_contra hr
  nlinarith

/-- The next pattern is at least one unit in the last place above. -/
theorem le_magUnits_sig_succ {r sh : ℕ} (hr : r ≤ 2 ^ 24) (hnormal : sh = 0 ∨ 2 ^ 23 ≤ r) :
    (r + 1) * 2 ^ sh ≤ magUnits (r + sh * 2 ^ 23 + 1) := by
  by_cases hcarry : r = 2 ^ 24
  · subst hcarry
    rw [show 2 ^ 24 + sh * 2 ^ 23 + 1 = (2 ^ 23 + 1) + (sh + 1) * 2 ^ 23 by omega,
      magUnits_sig (by norm_num) (.inr (by norm_num)), pow_succ' 2 sh, ← mul_assoc]
    exact Nat.mul_le_mul_right _ (by norm_num)
  · rw [show r + sh * 2 ^ 23 + 1 = (r + 1) + sh * 2 ^ 23 by omega, magUnits_sig (by omega) (by omega)]

/-- The value's unit in the last place lies `log2 - 23` bits above 2^-149, or is 2^-149: 24 bits hold the significand. -/
theorem shift_bounds (num : ℕ) {den : ℕ} (hden : 0 < den) :
    num < 2 ^ 24 * (den * 2 ^ (Nat.log2 (num / den) - 23)) ∧
    (Nat.log2 (num / den) - 23 = 0 ∨ 2 ^ 23 * (den * 2 ^ (Nat.log2 (num / den) - 23)) ≤ num) := by
  have hupper : num / den < 2 ^ (Nat.log2 (num / den) + 1) := Nat.lt_log2_self
  constructor
  · rw [mul_left_comm, ← pow_add, mul_comm, ← Nat.div_lt_iff_lt_mul hden]
    exact hupper.trans_le (Nat.pow_le_pow_right (by norm_num) (by omega))
  · rw [or_iff_not_imp_left]
    intro hsh
    have hlower : 2 ^ Nat.log2 (num / den) ≤ num / den := Nat.log2_self_le (by rintro h; simp [h] at hsh)
    rw [mul_left_comm, ← pow_add, show 23 + (Nat.log2 (num / den) - 23) = Nat.log2 (num / den) by omega, mul_comm,
      ← Nat.le_div_iff_mul_le hden]
    exact hlower

/-- The midpoints of a quotient, on whole numbers. -/
theorem nearestMag_div {num den p : ℕ} (hden : 0 < den)
    (hpred : ∀ q, q + 1 = p →
      (magUnits q + magUnits p) * den ≤ 2 * num ∧ ((magUnits q + magUnits p) * den = 2 * num → p % 2 = 0))
    (hsucc : 2 * num ≤ (magUnits p + magUnits (p + 1)) * den)
    (htie : 2 * num = (magUnits p + magUnits (p + 1)) * den → p % 2 = 0) : NearestMag ((num : ℝ) / den) p := by
  have hpos : (0 : ℝ) < den := Nat.cast_pos.2 hden
  have htwice : 2 * ((num : ℝ) / den) = (2 * num : ℕ) / den := by push_cast; ring
  refine nearestMag_of_neighbours (fun q hq => ?_) ?_ ?_
  · rw [htwice, le_div_iff₀ hpos, eq_div_iff hpos.ne']
    exact_mod_cast hpred q hq
  · rw [htwice, div_le_iff₀ hpos]
    exact_mod_cast hsucc
  · rw [htwice, div_eq_iff hpos.ne']
    exact_mod_cast htie

section
variable {num den sh r : ℕ} (h : NearestWhole num (den * 2 ^ sh) r) (hr : r ≤ 2 ^ 24)
  (hnormal : sh = 0 ∨ 2 ^ 23 * (den * 2 ^ sh) ≤ num ∧ 2 ^ 23 ≤ r)
include h hr hnormal

/-- The midpoint above a significand is half a unit in the last place above, or further after a carry. -/
theorem le_upper_midpoint :
    2 * num ≤ (magUnits (r + sh * 2 ^ 23) + magUnits (r + sh * 2 ^ 23 + 1)) * den ∧
    (2 * num = (magUnits (r + sh * 2 ^ 23) + magUnits (r + sh * 2 ^ 23 + 1)) * den → (r + sh * 2 ^ 23) % 2 = 0) := by
  have hr' : sh = 0 ∨ 2 ^ 23 ≤ r := hnormal.imp_right And.right
  have hmid : (2 * r + 1) * (den * 2 ^ sh) ≤
      (magUnits (r + sh * 2 ^ 23) + magUnits (r + sh * 2 ^ 23 + 1)) * den := by
    calc (2 * r + 1) * (den * 2 ^ sh) = (r * 2 ^ sh + (r + 1) * 2 ^ sh) * den := by ring
      _ ≤ _ := by
        rw [magUnits_sig hr hr']
        exact Nat.mul_le_mul_right _ (Nat.add_le_add_left (le_magUnits_sig_succ hr hr') _)
  refine ⟨h.upper.trans hmid, fun heq => ?_⟩
  have heven := h.upper_tie (le_antisymm h.upper (hmid.trans heq.ge))
  omega

/-- The midpoint below a significand is half a unit in the last place below; only below 2^23 are the units smaller, and
there the value is not below the significand. -/
theorem lower_midpoint_le (hden : 0 < den) {q : ℕ} (hq : q + 1 = r + sh * 2 ^ 23) :
    (magUnits q + magUnits (r + sh * 2 ^ 23)) * den ≤ 2 * num ∧
    ((magUnits q + magUnits (r + sh * 2 ^ 23)) * den = 2 * num → (r + sh * 2 ^ 23) % 2 = 0) := by
  have hp := magUnits_sig hr (hnormal.imp_right And.right)
  by_cases hbinade : sh = 0 ∨ 2 ^ 23 < r
  · obtain ⟨k, rfl⟩ : ∃ k, r = k + 1 := ⟨r - 1, by omega⟩
    have hlower := h.lower
    have hmid : (k * 2 ^ sh + (k + 1) * 2 ^ sh) * den + den * 2 ^ sh = 2 * (k + 1) * (den * 2 ^ sh) := by ring
    rw [hp, show q = k + sh * 2 ^ 23 by omega, magUnits_sig (by omega) (by omega)]
    refine ⟨by omega, fun heq => ?_⟩
    have heven := h.lower_tie (by omega)
    omega
  · obtain ⟨hlarge, hge⟩ := hnormal.resolve_left (by omega)
    obtain rfl : r = 2 ^ 23 := by omega
    have hlt : (magUnits q + magUnits (2 ^ 23 + sh * 2 ^ 23)) * den < 2 * num := by
      calc (magUnits q + magUnits (2 ^ 23 + sh * 2 ^ 23)) * den
          < (2 ^ 23 * 2 ^ sh + 2 ^ 23 * 2 ^ sh) * den := by
            rw [← hp]
            exact Nat.mul_lt_mul_of_pos_right (Nat.add_lt_add_right (magUnits_mono (by omega)) _) hden
        _ = 2 * (2 ^ 23 * (den * 2 ^ sh)) := by ring
        _ ≤ 2 * num := Nat.mul_le_mul_left 2 hlarge
    exact ⟨hlt.le, fun heq => absurd heq hlt.ne⟩

theorem nearestMag_sig (hden : 0 < den) : NearestMag ((num : ℝ) / den) (r + sh * 2 ^ 23) := by
  obtain ⟨hsucc, htie⟩ := le_upper_midpoint h hr hnormal
  exact nearestMag_div hden (fun q hq => lower_midpoint_le h hr hnormal hden hq) hsucc htie

end

/-- `roundMag` rounds `num / den` to nearest, ties to even, cut off at infinity (R150). -/
theorem roundMag_nearest (num : ℕ) {den : ℕ} (hden : 0 < den) :
    ∃ p, roundMag num den = min p infMag ∧ NearestMag ((num : ℝ) / den) p := by
  refine ⟨_, rfl, ?_⟩
  obtain ⟨hfit, hnormal⟩ := shift_bounds num hden
  generalize Nat.log2 (num / den) - 23 = sh at *
  have hunit : 0 < den * 2 ^ sh := by positivity
  have hwhole := nearestEven_nearestWhole num hunit
  exact nearestMag_sig hwhole (hwhole.le hfit) (hnormal.imp_right fun hlarge => ⟨hlarge, hwhole.ge hunit hlarge⟩) hden

/-! ### The operations on finite operands -/

/-- The sum of finite values: an exact zero is `-0.0` of two negative operands only (R150). -/
theorem fadd_of_finite {a b : Word32} (ha : f32Finite a) (hb : f32Finite b) :
    fadd a b = if fUnits a + fUnits b = 0 then f32Zero (fSign a && fSign b)
      else fPack (decide (fUnits a + fUnits b < 0)) (roundMag (fUnits a + fUnits b).natAbs 1) := by
  rw [fadd, fIsNan_of_f32Finite ha, fIsNan_of_f32Finite hb, fIsInf_of_f32Finite ha, fIsInf_of_f32Finite hb]
  cases fSign a <;> cases fSign b <;> rfl

theorem fmul_of_finite {a b : Word32} (ha : f32Finite a) (hb : f32Finite b) :
    fmul a b = fPack (fSign a ^^ fSign b) (roundMag (magUnits (fMag a) * magUnits (fMag b)) (2 ^ 149)) := by
  rw [fmul, fIsNan_of_f32Finite ha, fIsNan_of_f32Finite hb, fIsInf_of_f32Finite ha, fIsInf_of_f32Finite hb]
  cases fSign a <;> cases fSign b <;> rfl

theorem fdiv_of_finite {a b : Word32} (ha : f32Finite a) (hb : f32Finite b) (h0 : f32Value b ≠ 0) :
    fdiv a b = fPack (fSign a ^^ fSign b) (roundMag (magUnits (fMag a) * 2 ^ 149) (magUnits (fMag b))) := by
  have hmag : fMag b ≠ 0 := mt f32Value_eq_zero.2 h0
  rw [fdiv, fIsNan_of_f32Finite ha, fIsNan_of_f32Finite hb, fIsInf_of_f32Finite ha, fIsInf_of_f32Finite hb]
  simp [hmag]

/-- A rounded magnitude with a sign is the signed quotient rounded. -/
theorem roundsTo_roundMag (s : Bool) (num : ℕ) {den : ℕ} (hden : 0 < den) :
    RoundsTo (signFactor s * ((num : ℝ) / den) / 2 ^ 149) (fPack s (roundMag num den)) := by
  obtain ⟨p, hp, hnearest⟩ := roundMag_nearest num hden
  rw [hp]
  exact roundsTo_fPack (by positivity) hnearest s

theorem roundsTo_f32Zero (s : Bool) : RoundsTo 0 (f32Zero s) := by
  have hround := roundsTo_roundMag s 0 Nat.one_pos
  have hzero : roundMag 0 1 = 0 := by decide
  simpa [hzero] using hround

theorem fadd_roundsTo {a b : Word32} (ha : f32Finite a) (hb : f32Finite b) :
    RoundsTo ((f32Value a : ℝ) + (f32Value b : ℝ)) (fadd a b) := by
  have hsum : (f32Value a : ℝ) + (f32Value b : ℝ) = ((fUnits a + fUnits b : ℤ) : ℝ) / 2 ^ 149 := by
    rw [f32Value_eq, f32Value_eq]
    push_cast
    ring
  rw [hsum, fadd_of_finite ha hb]
  generalize fUnits a + fUnits b = u
  split_ifs with h0
  · rw [h0, Int.cast_zero, zero_div]
    exact roundsTo_f32Zero _
  · have hsigned : (u : ℝ) = signFactor (decide (u < 0)) * ((u.natAbs : ℝ) / (1 : ℕ)) := by
      rw [Nat.cast_natAbs, signFactor]
      by_cases hneg : u < 0
      · simp [hneg, abs_of_neg]
      · simp [hneg, abs_of_nonneg (not_lt.1 hneg)]
    rw [hsigned]
    exact roundsTo_roundMag _ _ Nat.one_pos

@[simp] theorem f32Value_fNeg (a : Word32) : f32Value (fNeg a) = -f32Value a := by
  rw [f32Value_eq, f32Value_eq, fUnits, fUnits, fSign_fNeg, fMag_fNeg]
  cases fSign a <;> simp [neg_div]

/-- The two zeros are the patterns of magnitude 0. -/
theorem eq_fNegZero_iff (a : Word32) : a = 0x80000000 ↔ fSign a = true ∧ fMag a = 0 := by
  constructor
  · rintro rfl
    exact ⟨rfl, rfl⟩
  · rintro ⟨hs, hm⟩
    exact eq_of_sign_mag hs hm

theorem fNeg_eq_fNegZero_iff (a : Word32) : fNeg a = 0x80000000 ↔ a = 0x00000000 := by
  rw [eq_fNegZero_iff, fSign_fNeg, fMag_fNeg]
  constructor
  · rintro ⟨hs, hm⟩
    have hpos : fSign a = false := by simpa using hs
    exact eq_of_sign_mag hpos hm
  · rintro rfl
    exact ⟨rfl, rfl⟩

/-- Two negative operands with sum zero are zeros. -/
theorem fadd_exact_zero {a b : Word32} (ha : f32Finite a) (hb : f32Finite b) (h : f32Value a + f32Value b = 0) :
    fadd a b = if a = 0x80000000 ∧ b = 0x80000000 then 0x80000000 else 0x00000000 := by
  have hunits : fUnits a + fUnits b = 0 := by
    rw [f32Value_eq, f32Value_eq, ← add_div, div_eq_zero_iff] at h
    exact_mod_cast h.resolve_right (by positivity)
  have hsigns : (a = 0x80000000 ∧ b = 0x80000000) ↔ (fSign a && fSign b) = true := by
    rw [eq_fNegZero_iff, eq_fNegZero_iff, Bool.and_eq_true]
    refine ⟨fun ⟨ha, hb⟩ => ⟨ha.1, hb.1⟩, fun ⟨hsa, hsb⟩ => ?_⟩
    rw [fUnits, fUnits, if_pos hsa, if_pos hsb] at hunits
    exact ⟨⟨hsa, magUnits_eq_zero.1 (by omega)⟩, hsb, magUnits_eq_zero.1 (by omega)⟩
  rw [fadd_of_finite ha hb, if_pos hunits, f32Zero]
  exact if_congr hsigns.symm rfl rfl

/-- Settles O43: a sum is one rounding of the exact sum of units; a difference is the sum with the negated operand. -/
theorem sumsAreCorrectlyRounded : Obligations.SumsAreCorrectlyRounded := by
  unfold Obligations.SumsAreCorrectlyRounded
  intro a b ha hb
  have hneg : f32Finite (fNeg b) := f32Finite_fNeg hb
  refine ⟨fadd_roundsTo ha hb, ?_, fadd_exact_zero ha hb, fun h => ?_⟩
  · have hround := fadd_roundsTo ha hneg
    rwa [f32Value_fNeg, Rat.cast_neg, ← sub_eq_add_neg] at hround
  · have hzero := fadd_exact_zero ha hneg (by rwa [f32Value_fNeg, ← sub_eq_add_neg])
    simp only [fNeg_eq_fNegZero_iff] at hzero
    exact hzero

theorem msb_fPack_roundMag (s : Bool) (num den : ℕ) : (fPack s (roundMag num den)).msb = s := by
  rw [msb_eq_fSign, fSign_fPack s ((roundMag_le num den).trans_lt (by decide))]

/-- Settles O44: the product of the magnitudes, in units of 2^-149, is rounded once. -/
theorem productsAreCorrectlyRounded : Obligations.ProductsAreCorrectlyRounded := by
  unfold Obligations.ProductsAreCorrectlyRounded
  intro a b ha hb
  rw [fmul_of_finite ha hb, msb_fPack_roundMag, msb_eq_fSign, msb_eq_fSign]
  refine ⟨?_, rfl⟩
  have hproduct : (f32Value a : ℝ) * (f32Value b : ℝ) = signFactor (fSign a ^^ fSign b) *
      (((magUnits (fMag a) * magUnits (fMag b) : ℕ) : ℝ) / (2 ^ 149 : ℕ)) / 2 ^ 149 := by
    rw [f32Value_eq_signFactor, f32Value_eq_signFactor, signFactor_xor]
    push_cast
    ring
  rw [hproduct]
  exact roundsTo_roundMag _ _ (by positivity)

/-- Settles O45: the quotient of the magnitudes, in units of 2^-149, is rounded once. -/
theorem quotientsAreCorrectlyRounded : Obligations.QuotientsAreCorrectlyRounded := by
  unfold Obligations.QuotientsAreCorrectlyRounded
  intro a b ha hb h0
  rw [fdiv_of_finite ha hb h0, msb_fPack_roundMag, msb_eq_fSign, msb_eq_fSign]
  refine ⟨?_, rfl⟩
  have hpos : 0 < magUnits (fMag b) := Nat.pos_of_ne_zero (mt magUnits_eq_zero.1 (mt f32Value_eq_zero.2 h0))
  have hquotient : (f32Value a : ℝ) / (f32Value b : ℝ) = signFactor (fSign a ^^ fSign b) *
      (((magUnits (fMag a) * 2 ^ 149 : ℕ) : ℝ) / (magUnits (fMag b) : ℕ)) / 2 ^ 149 := by
    have hpos' : (0 : ℝ) < magUnits (fMag b) := Nat.cast_pos.2 hpos
    rw [f32Value_eq_signFactor, f32Value_eq_signFactor, signFactor_xor_eq_div, Nat.cast_mul, Nat.cast_pow, Nat.cast_ofNat]
    have hsign := signFactor_ne_zero (fSign b)
    field_simp
  rw [hquotient]
  exact roundsTo_roundMag _ _ hpos

end Sys2Proof.Machine

namespace Sys2Proof.Machine

/-! ## O48: the twiddle table (spec/41_fft.md R152)

`cosCompare` is the comparison of the real cosine (`cosCompare_eq`), so `cosFloorMag` finds the greatest pattern below its
magnitude and the comparison with the midpoint above that pattern rounds to nearest. -/

/-- The angle of the `k`-th root of size `2^l`. -/
noncomputable def angle (l k : ℕ) : ℝ := 2 * Real.pi * k / 2 ^ l

theorem angle_double (l k : ℕ) : angle (l + 1) (2 * k) = angle l k := by
  rw [angle, angle, pow_succ]
  push_cast
  field_simp

theorem two_mul_angle (l k : ℕ) : 2 * angle (l + 1) k = angle l k := by
  rw [angle, angle, pow_succ]
  field_simp

/-- Whole turns do not matter. -/
theorem cos_angle_mod (l k : ℕ) : Real.cos (angle l (k % 2 ^ l)) = Real.cos (angle l k) := by
  have hturns : angle l k = angle l (k % 2 ^ l) + (k / 2 ^ l : ℕ) * (2 * Real.pi) := by
    have hk : (k : ℝ) = (2 : ℝ) ^ l * (k / 2 ^ l : ℕ) + (k % 2 ^ l : ℕ) := by
      exact_mod_cast (Nat.div_add_mod k (2 ^ l)).symm
    rw [angle, angle, hk]
    field_simp
    ring
  rw [hturns, Real.cos_add_nat_mul_two_pi]

theorem cos_angle_of_mod_zero {l k : ℕ} (h : k % 2 ^ l = 0) : Real.cos (angle l k) = 1 := by
  rw [← cos_angle_mod, h, angle]
  simp

/-- In the first and in the last quarter turn the cosine is not negative. -/
theorem cos_angle_nonneg {l k : ℕ} (h : 4 * (k % 2 ^ l) ≤ 2 ^ l ∨ 3 * 2 ^ l ≤ 4 * (k % 2 ^ l)) :
    0 ≤ Real.cos (angle l k) := by
  have hpi := Real.pi_pos
  have hr : ((k % 2 ^ l : ℕ) : ℝ) < 2 ^ l := by exact_mod_cast Nat.mod_lt k (by positivity)
  rw [← cos_angle_mod]
  rcases h with h | h
  · have hquarter : 4 * ((k % 2 ^ l : ℕ) : ℝ) ≤ 2 ^ l := by exact_mod_cast h
    apply Real.cos_nonneg_of_neg_pi_div_two_le_of_le
    · have : 0 ≤ angle l (k % 2 ^ l) := by unfold angle; positivity
      linarith
    · rw [angle, div_le_iff₀ (by positivity)]
      nlinarith
  · have hquarter : 3 * 2 ^ l ≤ 4 * ((k % 2 ^ l : ℕ) : ℝ) := by exact_mod_cast h
    rw [← Real.cos_two_pi_sub]
    apply Real.cos_nonneg_of_neg_pi_div_two_le_of_le
    · have : angle l (k % 2 ^ l) ≤ 2 * Real.pi := by
        rw [angle, div_le_iff₀ (by positivity)]
        nlinarith
      linarith
    · have : 3 / 2 * Real.pi ≤ angle l (k % 2 ^ l) := by
        rw [angle, le_div_iff₀ (by positivity)]
        nlinarith
      linarith

/-- In the two quarter turns between the cosine is negative. -/
theorem cos_angle_neg {l k : ℕ} (h : ¬(4 * (k % 2 ^ l) ≤ 2 ^ l ∨ 3 * 2 ^ l ≤ 4 * (k % 2 ^ l))) :
    Real.cos (angle l k) < 0 := by
  have hpi := Real.pi_pos
  obtain ⟨hlow, hhigh⟩ := not_or.1 h
  have hlow' : 2 ^ l < 4 * ((k % 2 ^ l : ℕ) : ℝ) := by exact_mod_cast not_le.1 hlow
  have hhigh' : 4 * ((k % 2 ^ l : ℕ) : ℝ) < 3 * 2 ^ l := by exact_mod_cast not_le.1 hhigh
  rw [← cos_angle_mod]
  apply Real.cos_neg_of_pi_div_two_lt_of_lt
  · rw [angle, lt_div_iff₀ (by positivity)]
    nlinarith
  · rw [angle, div_lt_iff₀ (by positivity)]
    nlinarith

theorem cmp_neg_neg_real (x y : ℝ) : cmp (-x) (-y) = cmp y x :=
  StrictAnti.cmp_map_eq (f := fun z : ℝ => -z) (fun _ _ h => neg_lt_neg h) x y

/-- Doubling the angle keeps the order of two cosines that are not negative. -/
theorem cmp_double_of_nonneg {c q : ℝ} (hc : 0 ≤ c) (hq : 0 ≤ q) : cmp (2 * c ^ 2 - 1) (2 * q ^ 2 - 1) = cmp c q := by
  have hmono : StrictMonoOn (fun x : ℝ => 2 * x ^ 2 - 1) (Set.Ici 0) := fun x hx y _ hxy => by
    rw [Set.mem_Ici] at hx
    dsimp only
    nlinarith
  exact hmono.cmp_map_eq hc hq

/-- Doubling the angle reverses the order of two negative cosines. -/
theorem cmp_double_of_neg {c q : ℝ} (hc : c < 0) (hq : q < 0) : (cmp (2 * c ^ 2 - 1) (2 * q ^ 2 - 1)).swap = cmp c q := by
  rw [← neg_sq c, ← neg_sq q, cmp_double_of_nonneg (neg_nonneg.2 hc.le) (neg_nonneg.2 hq.le), cmp_swap]
  exact cmp_neg_neg_real q c

theorem compare_one (num : ℤ) (e : ℕ) : compare ((2 : ℤ) ^ e) num = cmp (1 : ℝ) (num / 2 ^ e) := by
  have hmono : StrictMono fun z : ℤ => (z : ℝ) / 2 ^ e := fun x y hxy =>
    div_lt_div_of_pos_right (Int.cast_lt.2 hxy) (by positivity)
  rw [← cmp_eq_compare, ← hmono.cmp_map_eq]
  simp

/-- `cosCompare` compares the cosine with the fraction. -/
theorem cosCompare_eq (l k : ℕ) (num : ℤ) (e : ℕ) : cosCompare l k num e = cmp (Real.cos (angle l k)) (num / 2 ^ e) := by
  induction l generalizing num e with
  | zero => rw [cosCompare, compare_one, cos_angle_of_mod_zero (by omega)]
  | succ l ih =>
    have hdouble : 2 * Real.cos (angle (l + 1) k) ^ 2 - 1 = Real.cos (angle l k) := by
      rw [← two_mul_angle l k, Real.cos_two_mul]
    have hfraction : 2 * ((num : ℝ) / 2 ^ e) ^ 2 - 1 = ((2 * num * num - 2 ^ (2 * e) : ℤ) : ℝ) / 2 ^ (2 * e) := by
      push_cast
      rw [pow_mul']
      field_simp
    rw [cosCompare]
    split_ifs with hturn hquarter hneg hnonneg
    · rw [compare_one, cos_angle_of_mod_zero hturn]
    · have hq : (num : ℝ) / 2 ^ e < 0 := div_neg_of_neg_of_pos (Int.cast_lt_zero.2 hneg) (by positivity)
      exact ((cmp_eq_gt_iff _ _).2 (hq.trans_le (cos_angle_nonneg hquarter))).symm
    · have hq : 0 ≤ (num : ℝ) / 2 ^ e := div_nonneg (Int.cast_nonneg (not_lt.1 hneg)) (by positivity)
      rw [ih, ← hdouble, ← hfraction, cmp_double_of_nonneg (cos_angle_nonneg hquarter) hq]
    · have hq : 0 ≤ (num : ℝ) / 2 ^ e := div_nonneg (Int.cast_nonneg hnonneg) (by positivity)
      exact ((cmp_eq_lt_iff _ _).2 ((cos_angle_neg hquarter).trans_le hq)).symm
    · have hq : (num : ℝ) / 2 ^ e < 0 := div_neg_of_neg_of_pos (Int.cast_lt_zero.2 (not_le.1 hnonneg)) (by positivity)
      rw [ih, ← hdouble, ← hfraction, cmp_double_of_neg (cos_angle_neg hquarter) hq]

theorem cosNegative_iff (l k : ℕ) : cosNegative l k = true ↔ Real.cos (angle l k) < 0 := by
  rw [cosNegative, cosCompare_eq, beq_iff_eq, cmp_eq_lt_iff]
  simp

/-- `cosMagCompare` compares the magnitude of the cosine with the fraction. -/
theorem cosMagCompare_eq (l k num e : ℕ) : cosMagCompare l k num e = cmp |Real.cos (angle l k)| (num / 2 ^ e) := by
  rw [cosMagCompare]
  split_ifs with hneg
  · rw [cosCompare_eq, cmp_swap, abs_of_neg ((cosNegative_iff l k).1 hneg), ← cmp_neg_neg_real]
    congr 1
    push_cast
    ring
  · rw [cosCompare_eq, abs_of_nonneg (not_lt.1 (mt (cosNegative_iff l k).2 hneg))]
    simp

/-! ### Patterns below 2.0 as binary fractions -/

theorem magSig_spec (p : ℕ) : magSig p + 1 ≤ 2 ^ 24 ∧ (p / 2 ^ 23 - 1 = 0 ∨ 2 ^ 23 ≤ magSig p) ∧
    p = magSig p + (p / 2 ^ 23 - 1) * 2 ^ 23 := by
  unfold magSig
  split_ifs <;> omega

theorem magUnits_eq_magSig (p : ℕ) : magUnits p = magSig p * 2 ^ (p / 2 ^ 23 - 1) := by
  obtain ⟨hle, hnormal, hp⟩ := magSig_spec p
  conv_lhs => rw [hp]
  exact magUnits_sig (by omega) hnormal

theorem magUnits_succ_eq_magSig (p : ℕ) : magUnits (p + 1) = (magSig p + 1) * 2 ^ (p / 2 ^ 23 - 1) := by
  obtain ⟨hle, hnormal, hp⟩ := magSig_spec p
  conv_lhs => rw [hp, Nat.add_right_comm]
  exact magUnits_sig hle (by omega)

section
variable {p : ℕ} (hp : p < 2 ^ 30)
include hp

theorem two_pow_magFracBits : (2 : ℝ) ^ magFracBits p * 2 ^ (p / 2 ^ 23 - 1) = 2 ^ 149 := by
  rw [← pow_add, magFracBits, Nat.sub_add_cancel (by omega)]

theorem magFraction_eq : (magSig p : ℝ) / 2 ^ magFracBits p = magUnits p / 2 ^ 149 := by
  rw [← two_pow_magFracBits hp, magUnits_eq_magSig]
  push_cast
  field_simp

/-- The fraction with one more bit is the midpoint to the next pattern. -/
theorem magMidpoint_eq : ((2 * magSig p + 1 : ℕ) : ℝ) / 2 ^ (magFracBits p + 1) =
    ((magUnits p : ℝ) + magUnits (p + 1)) / 2 / 2 ^ 149 := by
  rw [← two_pow_magFracBits hp, magUnits_eq_magSig, magUnits_succ_eq_magSig, pow_succ]
  push_cast
  field_simp
  ring

end

/-! ### The search and the rounding -/

/-- The magnitude of the cosine in units of 2^-149. -/
noncomputable def cosUnits (l k : ℕ) : ℝ := |Real.cos (angle l k)| * 2 ^ 149

theorem cosUnits_nonneg (l k : ℕ) : 0 ≤ cosUnits l k := by unfold cosUnits; positivity

theorem cosMagCompare_pattern (l k : ℕ) {p : ℕ} (hp : p < 2 ^ 30) :
    cosMagCompare l k (magSig p) (magFracBits p) = cmp (cosUnits l k) (magUnits p) := by
  rw [cosMagCompare_eq, magFraction_eq hp, ← cmp_mul_pos_right (show (0 : ℝ) < 2 ^ 149 by positivity),
    div_mul_cancel₀ _ (by positivity), cosUnits]

theorem cosMagCompare_midpoint (l k : ℕ) {p : ℕ} (hp : p < 2 ^ 30) :
    cosMagCompare l k (2 * magSig p + 1) (magFracBits p + 1) =
      cmp (2 * cosUnits l k) ((magUnits p : ℝ) + magUnits (p + 1)) := by
  rw [cosMagCompare_eq, magMidpoint_eq hp, ← cmp_mul_pos_right (show (0 : ℝ) < 2 * 2 ^ 149 by positivity), cosUnits]
  congr 1 <;> ring

/-- The search keeps the cosine between `p` and `p + 2^b`, and halves the gap. -/
theorem cosFloorMag_spec {l k b p : ℕ} (hp : p + 2 ^ b ≤ 2 ^ 30) (hlow : (magUnits p : ℝ) ≤ cosUnits l k)
    (hhigh : cosUnits l k < magUnits (p + 2 ^ b)) :
    cosFloorMag l k b p < 2 ^ 30 ∧ (magUnits (cosFloorMag l k b p) : ℝ) ≤ cosUnits l k ∧
      cosUnits l k < magUnits (cosFloorMag l k b p + 1) := by
  induction b generalizing p with
  | zero => exact ⟨by rw [cosFloorMag]; omega, hlow, hhigh⟩
  | succ b ih =>
    rw [pow_succ] at hp hhigh
    have hpos : 0 < 2 ^ b := by positivity
    rw [cosFloorMag, cosMagCompare_pattern l k (by omega)]
    split_ifs with hlt
    · exact ih (by omega) hlow ((cmp_eq_lt_iff _ _).1 hlt)
    · exact ih (by omega) (not_lt.1 (mt (cmp_eq_lt_iff _ _).2 hlt)) (by rwa [Nat.add_assoc, ← Nat.mul_two])

/-- No cosine reaches 2.0, where the search begins. -/
theorem cosFloorMag_floor (l k : ℕ) :
    cosFloorMag l k 30 0 < 2 ^ 30 ∧ (magUnits (cosFloorMag l k 30 0) : ℝ) ≤ cosUnits l k ∧
      cosUnits l k < magUnits (cosFloorMag l k 30 0 + 1) := by
  refine cosFloorMag_spec (by norm_num) (by simpa using cosUnits_nonneg l k) ?_
  rw [show (0 : ℕ) + 2 ^ 30 = 2 ^ 24 + 126 * 2 ^ 23 by norm_num, magUnits_sig le_rfl (.inr (by norm_num)), cosUnits]
  push_cast
  have hcos := Real.abs_cos_le_one (angle l k)
  nlinarith

/-- The pattern `roundedCos` gives a sign. -/
def cosNearestMag (l k : ℕ) : ℕ :=
  let p := cosFloorMag l k 30 0
  match cosMagCompare l k (2 * magSig p + 1) (magFracBits p + 1) with
  | .lt => p
  | .gt => p + 1
  | .eq => p + p % 2

theorem roundedCos_eq (l k : ℕ) :
    roundedCos l k = fPack (cosNegative l k && cosNearestMag l k != 0) (cosNearestMag l k) := rfl

/-- At or above the value of a pattern only the midpoint to the next one matters. -/
theorem nearestMag_of_floor {x : ℝ} {p : ℕ} (hfloor : (magUnits p : ℝ) ≤ x)
    (hmid : 2 * x ≤ (magUnits p : ℝ) + magUnits (p + 1))
    (htie : 2 * x = (magUnits p : ℝ) + magUnits (p + 1) → p % 2 = 0) : NearestMag x p := by
  refine nearestMag_of_neighbours (fun q hq => ?_) hmid htie
  have hlt := magUnits_cast_mono (show q < p by omega)
  exact ⟨by linarith, fun heq => by linarith⟩

/-- Below the value of a pattern only the midpoint to the one before matters. -/
theorem nearestMag_of_ceil {x : ℝ} {p : ℕ} (hceil : x < magUnits (p + 1))
    (hmid : (magUnits p : ℝ) + magUnits (p + 1) ≤ 2 * x)
    (htie : (magUnits p : ℝ) + magUnits (p + 1) = 2 * x → (p + 1) % 2 = 0) : NearestMag x (p + 1) := by
  have hlt := magUnits_cast_mono (Nat.lt_succ_self (p + 1))
  refine nearestMag_of_neighbours (fun q hq => ?_) (by linarith) (fun heq => by linarith)
  obtain rfl : q = p := by omega
  exact ⟨hmid, htie⟩

theorem cosNearestMag_nearest (l k : ℕ) : NearestMag (cosUnits l k) (cosNearestMag l k) := by
  obtain ⟨hp, hlow, hhigh⟩ := cosFloorMag_floor l k
  rw [cosNearestMag]
  rw [cosMagCompare_midpoint l k hp]
  generalize cosFloorMag l k 30 0 = p at *
  split
  · next hcmp =>
    have hlt := (cmp_eq_lt_iff _ _).1 hcmp
    exact nearestMag_of_floor hlow hlt.le fun heq => absurd heq hlt.ne
  · next hcmp =>
    have hgt := (cmp_eq_gt_iff _ _).1 hcmp
    exact nearestMag_of_ceil hhigh hgt.le fun heq => absurd heq hgt.ne
  · next hcmp =>
    have heq := (cmp_eq_eq_iff _ _).1 hcmp
    rcases Nat.mod_two_eq_zero_or_one p with hparity | hparity <;> rw [hparity]
    · exact nearestMag_of_floor hlow heq.le fun _ => hparity
    · exact nearestMag_of_ceil hhigh heq.ge fun _ => by omega

theorem cosNearestMag_lt (l k : ℕ) : cosNearestMag l k < infMag := by
  rw [nearestMag_lt_infMag_iff (cosNearestMag_nearest l k), cosUnits]
  have hcos := Real.abs_cos_le_one (angle l k)
  nlinarith

/-- A value rounded to `-0.0` is as well rounded to `+0.0`. -/
theorem RoundsTo.posZero {x : ℝ} (h : RoundsTo x 0x80000000) : RoundsTo x 0x00000000 := by
  have hvalue : f32Value 0x00000000 = f32Value 0x80000000 :=
    (f32Value_eq_zero.2 rfl).trans (f32Value_eq_zero.2 rfl).symm
  rcases h with ⟨hx, -, hnearest, -⟩ | ⟨-, hinf⟩
  · exact .inl ⟨hx, by simp [f32Finite], by rwa [hvalue], fun _ _ _ _ => rfl⟩
  · split_ifs at hinf <;> exact absurd hinf (by decide)

/-- `roundedCos` rounds the cosine to nearest, ties to even (R152). -/
theorem roundedCos_roundsTo (l k : ℕ) : RoundsTo (Real.cos (angle l k)) (roundedCos l k) := by
  have hcos : signFactor (cosNegative l k) * cosUnits l k / 2 ^ 149 = Real.cos (angle l k) := by
    rw [cosUnits, ← mul_assoc, mul_div_cancel_right₀ _ (by positivity), signFactor]
    split_ifs with hneg
    · rw [abs_of_neg ((cosNegative_iff l k).1 hneg), neg_one_mul, neg_neg]
    · rw [abs_of_nonneg (not_lt.1 (mt (cosNegative_iff l k).2 hneg)), one_mul]
  have hround := roundsTo_fPack (cosUnits_nonneg l k) (cosNearestMag_nearest l k) (cosNegative l k)
  rw [hcos, Nat.min_eq_left (cosNearestMag_lt l k).le] at hround
  rw [roundedCos_eq]
  by_cases h0 : cosNearestMag l k = 0
  · rw [h0, fPack_zero] at hround
    rw [h0, bne_self_eq_false, Bool.and_false, fPack_zero]
    cases hneg : cosNegative l k <;> rw [hneg] at hround
    · exact hround
    · exact hround.posZero
  · rwa [bne_iff_ne.2 h0, Bool.and_true]

/-- An exact zero is `+0.0` (R152). -/
theorem roundedCos_of_zero {l k : ℕ} (h : Real.cos (angle l k) = 0) : roundedCos l k = 0x00000000 := by
  have hunits : cosUnits l k = 0 := by simp [cosUnits, h]
  have hzero : cosNearestMag l k = 0 := by
    by_contra hne
    have hbelow := (cosNearestMag_nearest l k).below 0 (Nat.pos_of_ne_zero hne)
    have hpos := magUnits_cast_mono (Nat.pos_of_ne_zero hne)
    simp only [hunits, magUnits_zero] at hbelow hpos
    linarith
  rw [roundedCos_eq, hzero, bne_self_eq_false, Bool.and_false]
  rfl

theorem twiddleTable_getD {l k : ℕ} (hk : k < 2 ^ l / 2) : (twiddleTable l).getD k cZero = twiddleEntry l k :=
  elemAt_map_range (twiddleEntry l) hk

/-- A quarter turn on, the cosine is minus the sine. -/
theorem cos_angle_quarter (l k : ℕ) : Real.cos (angle (l + 2) (4 * k + 2 ^ l)) = -Real.sin (angle l k) := by
  rw [← Real.cos_add_pi_div_two]
  congr 1
  rw [angle, angle, pow_add]
  push_cast
  field_simp
  ring

/-- Settles O48: both parts of an entry are rounded cosines. -/
theorem twiddleTableIsCorrectlyRounded : Obligations.TwiddleTableIsCorrectlyRounded := by
  unfold Obligations.TwiddleTableIsCorrectlyRounded
  intro l k hk x y e
  have he : e = twiddleEntry l k := twiddleTable_getD hk
  have hy : y = Real.cos (angle (l + 2) (4 * k + 2 ^ l)) := (cos_angle_quarter l k).symm
  rw [he, hy]
  exact ⟨roundedCos_roundsTo l k, roundedCos_roundsTo _ _, roundedCos_of_zero, roundedCos_of_zero⟩

/-! ## O49: the printed tables (spec/41_fft.md R152)

The table of one size is every second entry of the next, because its angles are; so the table for N = 64, computed once,
fixes those below it. -/

/-- The comparison is one of the angle, not of the numbers that give it. -/
theorem cosCompare_double (l k : ℕ) : cosCompare (l + 1) (2 * k) = cosCompare l k := by
  funext num e
  rw [cosCompare_eq, cosCompare_eq, angle_double]

theorem cosNegative_double (l k : ℕ) : cosNegative (l + 1) (2 * k) = cosNegative l k := by
  rw [cosNegative, cosNegative, cosCompare_double]

theorem cosMagCompare_double (l k : ℕ) : cosMagCompare (l + 1) (2 * k) = cosMagCompare l k := by
  funext num e
  rw [cosMagCompare, cosMagCompare, cosCompare_double, cosNegative_double]

theorem cosFloorMag_double (l k b p : ℕ) : cosFloorMag (l + 1) (2 * k) b p = cosFloorMag l k b p := by
  induction b generalizing p with
  | zero => rfl
  | succ b ih => rw [cosFloorMag, cosFloorMag, cosMagCompare_double, ih, ih]

theorem roundedCos_double (l k : ℕ) : roundedCos (l + 1) (2 * k) = roundedCos l k := by
  rw [roundedCos_eq, roundedCos_eq, cosNearestMag, cosNearestMag, cosFloorMag_double, cosMagCompare_double,
    cosNegative_double]

theorem twiddleEntry_double (l k : ℕ) : twiddleEntry (l + 1) (2 * k) = twiddleEntry l k := by
  rw [twiddleEntry, twiddleEntry, roundedCos_double, show 4 * (2 * k) + 2 ^ (l + 1) = 2 * (4 * k + 2 ^ l) by ring,
    show l + 1 + 2 = l + 2 + 1 by ring, roundedCos_double]

@[simp] theorem twiddleTable_length (l : ℕ) : (twiddleTable l).length = 2 ^ l / 2 := by simp [twiddleTable]

theorem everySecond_map_range (f : ℕ → Cplx) (n : ℕ) :
    everySecond ((List.range (2 * n)).map f) = (List.range n).map fun k => f (2 * k) := by
  induction n generalizing f with
  | zero => rfl
  | succ n ih =>
    rw [Nat.mul_succ, List.range_succ_eq_map, List.range_succ_eq_map, List.range_succ_eq_map]
    simpa [everySecond, Function.comp_def, Nat.mul_succ] using ih fun k => f (k + 2)

theorem everySecond_twiddleTable (l : ℕ) : everySecond (twiddleTable (l + 2)) = twiddleTable (l + 1) := by
  have htwice : 2 ^ (l + 2) / 2 = 2 * (2 ^ (l + 1) / 2) := by
    simp only [pow_succ]
    omega
  rw [twiddleTable, twiddleTable, htwice, everySecond_map_range]
  exact List.map_congr_left fun k _ => twiddleEntry_double (l + 1) k

/-- The table for N = 64, every entry computed exactly. -/
theorem twiddleTable_six : twiddleTable 6 = tw64 := by decide +kernel

/-- Settles O49: the table for N = 64 is computed, those below it are every second entry of the one before. -/
theorem printedTableIsTheTable : Obligations.PrintedTableIsTheTable := by
  unfold Obligations.PrintedTableIsTheTable
  have h5 : twiddleTable 5 = everySecond tw64 := by rw [← twiddleTable_six, everySecond_twiddleTable]
  have h4 : twiddleTable 4 = everySecond (everySecond tw64) := by rw [← h5, everySecond_twiddleTable]
  have h3 : twiddleTable 3 = tw8 := by rw [tw8, ← h4, everySecond_twiddleTable]
  have h2 : twiddleTable 2 = everySecond tw8 := by rw [← h3, everySecond_twiddleTable]
  have h1 : twiddleTable 1 = everySecond (everySecond tw8) := by rw [← h2, everySecond_twiddleTable]
  refine ⟨⟨twiddleTable_six, h5, h4, h3, h2, h1⟩, fun l => ⟨twiddleTable_length l, fun k hk => ?_⟩⟩
  rw [twiddleTable_getD hk, twiddleTable_getD (by omega), twiddleEntry_double]

end Sys2Proof.Machine

namespace Sys2Proof.Machine

/-! ## O47: the comparisons (spec/42_compress.md R180)

`flt`, `fge` and `feq` compare the values of `f32Value`, which gives an infinity the value 2^128 of its magnitude pattern,
beyond every finite one. So `f32Extended`, where the infinities are the ends of the order, has the same order. -/

theorem f32Value_lt_iff (a b : Word32) : f32Value a < f32Value b ↔ fOrder a < fOrder b := by
  rw [← not_le, f32Value_le_iff, not_le]

theorem flt_iff (a b : Word32) :
    flt a b = true ↔ fIsNan a = false ∧ fIsNan b = false ∧ f32Value a < f32Value b := by
  simp [flt, f32Value_lt_iff, and_assoc]

theorem f32Value_eq_iff (a b : Word32) : f32Value a = f32Value b ↔ fOrder a = fOrder b := by
  rw [le_antisymm_iff, f32Value_le_iff, f32Value_le_iff, ← le_antisymm_iff]

theorem feq_iff (a b : Word32) :
    feq a b = true ↔ fIsNan a = false ∧ fIsNan b = false ∧ f32Value a = f32Value b := by
  simp [feq, f32Value_eq_iff, and_assoc]

theorem flt_of_nan {a b : Word32} (h : fIsNan a = true ∨ fIsNan b = true) : flt a b = false := by
  rcases h with h | h <;> simp [flt, h]

theorem fge_of_nan {a b : Word32} (h : fIsNan a = true ∨ fIsNan b = true) : fge a b = false := by
  rcases h with h | h <;> simp [fge, h]

theorem feq_of_nan {a b : Word32} (h : fIsNan a = true ∨ fIsNan b = true) : feq a b = false := by
  rcases h with h | h <;> simp [feq, h]

/-- A pattern that is no NaN is finite or an infinity. -/
theorem f32Finite_or_f32Inf {a : Word32} (h : fIsNan a = false) : f32Finite a ∨ ∃ s, a = f32Inf s := by
  have hle : fMag a ≤ infMag := not_lt.1 (of_decide_eq_false h)
  rcases hle.lt_or_eq with hlt | heq
  · exact .inl ((f32Finite_iff a).2 hlt)
  · exact .inr ⟨fSign a, eq_of_sign_mag (by simp) (by simpa using heq)⟩

theorem f32Value_lt_posInf {a : Word32} (h : f32Finite a) : f32Value a < f32Value (f32Inf false) := by
  rw [f32Finite_iff] at h
  rw [f32Value_lt_iff, show fOrder (f32Inf false) = infMag by rfl, fOrder]
  split <;> omega

theorem negInf_lt_f32Value {a : Word32} (h : f32Finite a) : f32Value (f32Inf true) < f32Value a := by
  rw [f32Finite_iff] at h
  rw [f32Value_lt_iff, show fOrder (f32Inf true) = -infMag by rfl, fOrder]
  split <;> omega

@[simp] theorem f32Extended_posInf : f32Extended (f32Inf false) = ⊤ := rfl

@[simp] theorem f32Extended_negInf : f32Extended (f32Inf true) = ⊥ := rfl

theorem f32Extended_of_finite {a : Word32} (h : f32Finite a) :
    f32Extended a = ((f32Value a : WithTop ℚ) : WithBot (WithTop ℚ)) := by
  have hinf : ∀ s, a ≠ f32Inf s := by
    rintro s rfl
    simp [f32Finite_iff] at h
  exact (if_neg (hinf false)).trans (if_neg (hinf true))

/-- Where an infinity takes part it is the end of both orders; finite values are compared as they are. -/
theorem f32Extended_le_iff {a b : Word32} (ha : fIsNan a = false) (hb : fIsNan b = false) :
    f32Extended a ≤ f32Extended b ↔ f32Value a ≤ f32Value b := by
  have hends : f32Value (f32Inf true) < f32Value (f32Inf false) := (f32Value_lt_iff _ _).2 (by decide)
  rcases f32Finite_or_f32Inf ha with ha | ⟨_ | _, rfl⟩ <;> rcases f32Finite_or_f32Inf hb with hb | ⟨_ | _, rfl⟩
  · simp [f32Extended_of_finite ha, f32Extended_of_finite hb]
  · simp [(f32Value_lt_posInf ha).le]
  · simp [f32Extended_of_finite ha, negInf_lt_f32Value ha]
  · simp [f32Extended_of_finite hb, f32Value_lt_posInf hb]
  · simp
  · simp [hends]
  · simp [(negInf_lt_f32Value hb).le]
  · simp [hends.le]
  · simp

theorem fabs_eq_and (a : Word32) : fabs a = (a &&& 0x7FFFFFFF) := by
  apply BitVec.eq_of_toNat_eq
  rw [BitVec.toNat_and, show (0x7FFFFFFF : Word32).toNat = 2 ^ 31 - 1 by rfl, Nat.and_two_pow_sub_one_eq_mod, fabs,
    toNat_fPack false (fMag_lt a)]
  simp [fMag]

@[simp] theorem fSign_fabs (a : Word32) : fSign (fabs a) = false := fSign_fPack false (fMag_lt a)

@[simp] theorem fMag_fabs (a : Word32) : fMag (fabs a) = fMag a := fMag_fPack false (fMag_lt a)

@[simp] theorem fIsNan_fabs (a : Word32) : fIsNan (fabs a) = fIsNan a := by simp [fIsNan]

theorem f32Value_fabs (a : Word32) : f32Value (fabs a) = |f32Value a| := by
  rw [f32Value_eq, f32Value_eq, fUnits, fUnits, fSign_fabs, fMag_fabs]
  cases fSign a <;> simp [abs_div]

/-- Settles O47: the comparisons are those of `f32Value`, whose order is that of `f32Extended`. -/
theorem comparisonsFollowTheValues : Obligations.ComparisonsFollowTheValues := by
  unfold Obligations.ComparisonsFollowTheValues
  simp only [f32Nan_iff, Bool.not_eq_true]
  refine ⟨fun a b ha hb => ?_, fun a b h => ⟨flt_of_nan h, fge_of_nan h, feq_of_nan h⟩, fun a _ => fabs_eq_and a,
    fun a _ => f32Value_fabs a, fun a h => by simpa using h, fun _ => trivial⟩
  have hab := f32Extended_le_iff ha hb
  have hba := f32Extended_le_iff hb ha
  refine ⟨?_, ?_, ?_⟩
  · simp [flt_iff, ha, hb, ← not_le, hba]
  · simp [fge_iff, ha, hb, hba]
  · rw [feq_iff, le_antisymm_iff (a := f32Extended a), hab, hba, ← le_antisymm_iff]
    simp [ha, hb]

end Sys2Proof.Machine

namespace Sys2Proof.Machine

/-! ## O55: the reference peak (spec/42_compress.md R183) -/

theorem flt_irrefl (a : Word32) : flt a a = false := by simp [flt]

theorem flt_trans {a b c : Word32} (hab : flt a b = true) (hbc : flt b c = true) : flt a c = true := by
  rw [flt_iff] at *
  exact ⟨hab.1, hbc.2.1, hab.2.2.trans hbc.2.2⟩

/-- What does not exceed `b`, and is no NaN, is below all that exceeds `b`. -/
theorem flt_of_not_flt_of_flt {a b c : Word32} (ha : fIsNan a = false) (hba : flt b a = false) (hbc : flt b c = true) :
    flt a c = true := by
  rw [flt_iff] at *
  obtain ⟨hb, hc, hlt⟩ := hbc
  have hle : f32Value a ≤ f32Value b := by
    refine not_lt.1 fun hgt => ?_
    rw [(flt_iff b a).2 ⟨hb, ha, hgt⟩] at hba
    contradiction
  exact ⟨ha, hc, hle.trans_lt hlt⟩

/-- `p` is the first largest of the measures `v 0` to `v m`, NaNs aside; only at place 0 can it be a NaN itself. -/
structure FirstMaximum (v : ℕ → Word32) (m p : ℕ) : Prop where
  le : p ≤ m
  max : ∀ k ≤ m, flt (v p) (v k) = false
  first : ∀ k < p, fIsNan (v k) = false → flt (v k) (v p) = true
  of_nan_zero : fIsNan (v 0) = true → p = 0
  of_nan : fIsNan (v p) = true → p = 0

section
variable {v : ℕ → Word32} {m p : ℕ} (h : FirstMaximum v m p)
include h

/-- The next measure does not exceed the candidate, which stays. -/
theorem FirstMaximum.keep (hnext : flt (v p) (v (m + 1)) = false) : FirstMaximum v (m + 1) p where
  le := h.le.trans (Nat.le_succ m)
  max k hk := by
    rcases Nat.le_succ_iff.1 hk with hk | rfl
    · exact h.max k hk
    · exact hnext
  first := h.first
  of_nan_zero := h.of_nan_zero
  of_nan := h.of_nan

/-- The next measure exceeds the candidate, so it exceeds all before it that are no NaN. -/
theorem FirstMaximum.replace (hnext : flt (v p) (v (m + 1)) = true) : FirstMaximum v (m + 1) (m + 1) where
  le := le_rfl
  max k hk := by
    rcases Nat.le_succ_iff.1 hk with hk | rfl
    · refine Bool.eq_false_iff.2 fun hgt => ?_
      exact absurd (h.max k hk) (by simp [flt_trans hnext hgt])
    · exact flt_irrefl _
  first k hk hnan := flt_of_not_flt_of_flt hnan (h.max k (Nat.lt_succ_iff.1 hk)) hnext
  of_nan_zero hnan := by
    rw [h.of_nan_zero hnan, flt_of_nan (.inl hnan)] at hnext
    contradiction
  of_nan hnan := by
    rw [flt_of_nan (.inr hnan)] at hnext
    contradiction

end

theorem peakIndex_succ (bins : List Cplx) (m : ℕ) :
    peakIndex bins (m + 1) = if flt (binL1 (binAt bins (peakIndex bins m))) (binL1 (binAt bins (m + 1))) then m + 1
      else peakIndex bins m := by
  rw [peakIndex, List.range_succ, List.foldl_append]
  rfl

/-- The scan keeps the first largest of the bins it has passed. -/
theorem peakIndex_firstMaximum (bins : List Cplx) (m : ℕ) :
    FirstMaximum (fun k => binL1 (binAt bins k)) m (peakIndex bins m) := by
  induction m with
  | zero =>
    refine ⟨le_rfl, fun k hk => ?_, fun k hk => absurd hk (Nat.not_lt_zero k), fun _ => rfl, fun _ => rfl⟩
    obtain rfl := Nat.le_zero.1 hk
    exact flt_irrefl _
  | succ m ih =>
    rw [peakIndex_succ]
    split_ifs with hnext
    · exact ih.replace hnext
    · exact ih.keep (by simpa using hnext)

/-- Settles O55, by induction on the bins scanned. -/
theorem peakIsTheFirstMaximum : Obligations.PeakIsTheFirstMaximum := by
  unfold Obligations.PeakIsTheFirstMaximum
  intro bins m
  have h := peakIndex_firstMaximum bins m
  exact ⟨h.le, h.max, h.first, h.of_nan_zero, h.of_nan⟩

end Sys2Proof.Machine

namespace Sys2Proof.Machine

/-! ## O56: the squared magnitude (spec/42_compress.md R182) -/

theorem fSign_fPack_roundMag (s : Bool) (num den : ℕ) : fSign (fPack s (roundMag num den)) = s := by
  rw [← msb_eq_fSign, msb_fPack_roundMag]

/-- The sign of a square is the exclusive-or of a sign with itself. -/
theorem fSign_fmul_self (a : Word32) : fSign (fmul a a) = false := by
  have hsame : (fSign a != fSign a) = false := bne_self_eq_false _
  rw [fmul, hsame]
  split_ifs
  · rfl
  · rfl
  · rfl
  · exact fSign_fPack_roundMag _ _ _

theorem fUnits_nonneg {a : Word32} (h : fSign a = false) : 0 ≤ fUnits a := by simp [fUnits, h]

/-- A sum of two values without a sign has none. -/
theorem fSign_fadd {a b : Word32} (ha : fSign a = false) (hb : fSign b = false) : fSign (fadd a b) = false := by
  have hsum : ¬fUnits a + fUnits b < 0 := not_lt.2 (add_nonneg (fUnits_nonneg ha) (fUnits_nonneg hb))
  rw [fadd, ha, hb]
  simp only [bne_self_eq_false, Bool.and_false, Bool.false_eq_true, if_false]
  split_ifs
  · rfl
  · exact ha
  · exact hb
  · rfl
  · rw [fSign_fPack_roundMag]
    exact decide_eq_false hsum

theorem binSq_of_nan {b : Cplx} (h : fIsNan b.re = true ∨ fIsNan b.im = true) : binSq b = fNan := by
  rcases h with h | h
  · exact fadd_of_nan (.inl (by rw [fmul_of_nan (.inl h)]; rfl))
  · exact fadd_of_nan (.inr (by rw [fmul_of_nan (.inl h)]; rfl))

/-- Settles O56: both products are squares. -/
theorem squaredMagnitudeIsNeverNegative : Obligations.SquaredMagnitudeIsNeverNegative := by
  unfold Obligations.SquaredMagnitudeIsNeverNegative
  intro b
  rw [msb_eq_fSign]
  exact ⟨fSign_fadd (fSign_fmul_self b.re) (fSign_fmul_self b.im), binSq_of_nan⟩

/-! ## O59, O60: which bins a packet has (spec/42_compress.md R184 to R187, R191, R192) -/

theorem includedBins_of_silent {c : Config} {bins : List Cplx} (h : isSilent (peakSq bins c.m) = true) :
    includedBins c bins = [] := if_pos h

theorem includedBins_of_not_silent {c : Config} {bins : List Cplx} (h : isSilent (peakSq bins c.m) = false) :
    includedBins c bins = (List.range (c.m + 1)).filter fun k =>
      binIncluded c.thresholdSq (reciprocal (peakSq bins c.m)) (binAt bins k) := if_neg (by simp [h])

theorem mem_includedBins {c : Config} {bins : List Cplx} {k : ℕ} :
    k ∈ includedBins c bins ↔ k ≤ c.m ∧ isSilent (peakSq bins c.m) = false ∧
      binIncluded c.thresholdSq (reciprocal (peakSq bins c.m)) (binAt bins k) = true := by
  cases h : isSilent (peakSq bins c.m)
  · simp [includedBins_of_not_silent h]
  · simp [includedBins_of_silent h]

theorem includedBins_sublist (c : Config) (bins : List Cplx) :
    (includedBins c bins).Sublist (List.range (c.m + 1)) := by
  cases h : isSilent (peakSq bins c.m)
  · rw [includedBins_of_not_silent h]
    exact List.filter_sublist
  · rw [includedBins_of_silent h]
    exact List.nil_sublist _

theorem includedBins_pairwise (c : Config) (bins : List Cplx) : (includedBins c bins).Pairwise (· < ·) :=
  List.pairwise_lt_range.sublist (includedBins_sublist c bins)

theorem includedBins_length_le (c : Config) (bins : List Cplx) : (includedBins c bins).length ≤ c.m + 1 := by
  simpa using (includedBins_sublist c bins).length_le

/-- A bin whose scaled measure is a NaN is not included (R191). -/
theorem binIncluded_of_nan {t r : Word32} {b : Cplx} (h : fIsNan (binSq b) = true ∨ fIsNan r = true) :
    binIncluded t r b = false :=
  fge_of_nan (.inl (by rw [fmul_of_nan h]; rfl))

theorem not_nan_of_binIncluded {t r : Word32} {b : Cplx} (h : binIncluded t r b = true) :
    fIsNan b.re = false ∧ fIsNan b.im = false := by
  by_contra hnan
  have hpart : fIsNan b.re = true ∨ fIsNan b.im = true := by
    rwa [not_and_or, Bool.not_eq_false, Bool.not_eq_false] at hnan
  rw [binIncluded_of_nan (.inl (by rw [binSq_of_nan hpart]; rfl))] at h
  contradiction

/-- `M` is at most 2^29 (spec/00_scope.md R6). -/
theorem m_le {c : Config} (h : c.log2n ≤ 30) : c.m ≤ 2 ^ 29 := by
  have hn : c.n ≤ 2 ^ 30 := Nat.pow_le_pow_right (by norm_num) h
  rw [Config.m]
  omega

theorem ofNat_ne_terminator {k : ℕ} (h : k ≤ 2 ^ 29) : BitVec.ofNat 32 k ≠ terminator := by
  intro heq
  have hnat := congrArg BitVec.toNat heq
  rw [BitVec.toNat_ofNat, show terminator.toNat = 0x7FC00000 by rfl] at hnat
  omega

theorem includedBins_ne_terminator {c : Config} (hc : c.log2n ≤ 30) (bins : List Cplx) :
    ∀ k ∈ includedBins c bins, BitVec.ofNat 32 k ≠ terminator :=
  fun _ hk => ofNat_ne_terminator ((mem_includedBins.1 hk).1.trans (m_le hc))

/-- Settles O59: an index is at most `M`, and a bin with a NaN part has a NaN measure. -/
theorem terminatorAppearsOnlyAtTheEnd : Obligations.TerminatorAppearsOnlyAtTheEnd := by
  unfold Obligations.TerminatorAppearsOnlyAtTheEnd
  intro c bins k hc hk
  obtain ⟨hle, -, hincluded⟩ := mem_includedBins.1 hk
  exact ⟨hle, hle.trans (m_le hc), includedBins_ne_terminator hc bins k hk, not_nan_of_binIncluded hincluded⟩

/-- A product with a zero is a NaN or a zero (R150). -/
theorem fmul_f32Zero (a : Word32) (s : Bool) :
    fIsNan (fmul a (f32Zero s)) = true ∨ f32Value (fmul a (f32Zero s)) = 0 := by
  cases hnan : fIsNan a with
  | true => exact .inl (by rw [fmul_of_nan (.inl hnan)]; rfl)
  | false =>
    rcases f32Finite_or_f32Inf hnan with hfin | ⟨t, rfl⟩
    · right
      have hzero : roundMag 0 (2 ^ 149) = 0 := by decide
      rw [fmul_of_finite hfin ((f32Finite_iff _).2 (by simp [infMag])), fMag_f32Zero, magUnits_zero, Nat.mul_zero, hzero,
        fPack_zero, f32Value_eq_zero, fMag_f32Zero]
    · exact .inl (by rw [fmul_f32Inf_f32Zero]; rfl)

/-- Under an infinite peak nothing reaches a threshold above zero: every measure scales to a NaN or a zero (R191). -/
theorem binIncluded_f32Zero {t : Word32} (ht : flt fPosZero t = true) (s : Bool) (b : Cplx) :
    binIncluded t (f32Zero s) b = false := by
  rcases fmul_f32Zero (binSq b) s with hnan | hzero
  · exact fge_of_nan (.inl hnan)
  · obtain ⟨-, -, hpos⟩ := (flt_iff _ _).1 ht
    rw [f32Value_fPosZero] at hpos
    refine Bool.eq_false_iff.2 fun hincluded => ?_
    obtain ⟨-, -, hle⟩ := (fge_iff _ _).1 hincluded
    exact absurd hpos (not_lt.2 (hle.trans_eq hzero))

theorem reciprocal_posInf : reciprocal (f32Inf false) = f32Zero false := by decide

theorem reciprocal_of_nan {psq : Word32} (h : fIsNan psq = true) : reciprocal psq = fNan := fdiv_of_nan (.inr h)

/-- Settles O60: Silence has no entry; the reciprocal of the other two peaks is a NaN or `+0.0`. -/
theorem degeneratePeaksGiveEmptyPackets : Obligations.DegeneratePeaksGiveEmptyPackets := by
  unfold Obligations.DegeneratePeaksGiveEmptyPackets
  intro c bins h
  have hempty : includedBins c bins = [] := by
    refine List.eq_nil_iff_forall_not_mem.2 fun k hk => ?_
    obtain ⟨-, hsilent, hincluded⟩ := mem_includedBins.1 hk
    rcases h with hzero | hnan | ⟨hinf, hthreshold⟩
    · rw [hzero] at hsilent
      exact absurd hsilent (by decide)
    · rw [reciprocal_of_nan hnan, binIncluded_of_nan (.inr rfl)] at hincluded
      contradiction
    · rw [hinf, show (0x7F800000 : Word32) = f32Inf false by rfl, reciprocal_posInf,
        binIncluded_f32Zero hthreshold] at hincluded
      contradiction
  exact ⟨hempty, by rw [packet, hempty]; rfl⟩

end Sys2Proof.Machine

namespace Sys2Proof.Machine

/-! ## O25, O57, O58: the packet (spec/42_compress.md R187 to R193) -/

/-- Settles O25: the list is `includedBins`, the bytes are `packet`. -/
theorem cCompressFollowsItsRule : Obligations.CCompressFollowsItsRule := by
  unfold Obligations.CCompressFollowsItsRule
  intro s
  constructor
  · intro hv
    rw [exec, execCCompress, if_pos (by simp [hv]), raiseFault_eq_faulted]
    rfl
  · intro hv
    refine ⟨includedBins s.cfg s.spec, ?_, includedBins_pairwise _ _, fun k => mem_includedBins⟩
    rw [exec, execCCompress, if_neg (by simp [hv]), appendOut, packet, ← List.append_assoc]
    rfl

theorem emit32_le_toNat (v : Word32) :
    (emit32 .le v).map BitVec.toNat =
      [v.toNat % 256, v.toNat / 2 ^ 8 % 256, v.toNat / 2 ^ 16 % 256, v.toNat / 2 ^ 24] := by
  have hlast : v.toNat / 2 ^ 24 % 256 = v.toNat / 2 ^ 24 := Nat.mod_eq_of_lt (by have := v.isLt; omega)
  simpa [emit32, BitVec.extractLsb'_toNat, Nat.shiftRight_eq_div_pow] using hlast

theorem emit32_be_eq_reverse (v : Word32) : emit32 .be v = (emit32 .le v).reverse := rfl

/-- Entries have 12 bytes each, so dropping entries drops their bytes. -/
theorem drop_emitEntries (o : ByteOrder) (bins : List Cplx) (ks : List ℕ) (e : ℕ) :
    (emitEntries o bins ks).drop (12 * e) = emitEntries o bins (ks.drop e) := by
  induction e generalizing ks with
  | zero => rfl
  | succ e ih =>
    cases ks with
    | nil => simp [emitEntries]
    | cons k ks =>
      rw [emitEntries_cons, Nat.mul_succ, Nat.add_comm, ← List.drop_drop, List.drop_left' (emitEntry_length _ _ _), ih]
      rfl

theorem drop_packet (c : Config) (bins : List Cplx) {e : ℕ} (he : e ≤ (includedBins c bins).length) :
    (packet c bins).drop (12 * e) =
      emitEntries c.byteOrder bins ((includedBins c bins).drop e) ++ emit32 c.byteOrder terminator := by
  rw [packet, List.drop_append_of_le_length (by rw [emitEntries_length]; omega), drop_emitEntries]

/-- Entry `e` of a packet stands at bytes `12 e` to `12 e + 11` (R189). -/
theorem take_drop_packet (c : Config) (bins : List Cplx) {e : ℕ} (he : e < (includedBins c bins).length) :
    ((packet c bins).drop (12 * e)).take 12 =
      emitEntry c.byteOrder ((includedBins c bins).getD e 0) (binAt bins ((includedBins c bins).getD e 0)) := by
  rw [drop_packet c bins he.le, List.drop_eq_getElem_cons he, emitEntries_cons, List.append_assoc,
    List.take_left' (emitEntry_length _ _ _), List.getD_eq_getElem _ _ he]

/-- Settles O57, from the lengths of the fields and the entries. -/
theorem packetLayout : Obligations.PacketLayout := by
  unfold Obligations.PacketLayout
  refine ⟨fun v => ⟨emit32_le_toNat v, emit32_be_eq_reverse v⟩, fun c bins => ?_⟩
  refine ⟨packet_length c bins, includedBins_length_le c bins, fun e he => take_drop_packet c bins he, ?_⟩
  rw [drop_packet c bins le_rfl, List.drop_length]
  rfl

/-- A field is read back, in either byte order. -/
@[simp] theorem readField_emit32 (o : ByteOrder) (v : Word32) (rest : List Byte) :
    readField o (emit32 o v ++ rest) = some (v, rest) := by
  have hjoin : v.extractLsb' 24 8 ++ v.extractLsb' 16 8 ++ v.extractLsb' 8 8 ++ v.extractLsb' 0 8 = v := by
    apply BitVec.eq_of_toNat_eq
    have := v.isLt
    simp only [toNat_append_eq, BitVec.extractLsb'_toNat, Nat.shiftRight_eq_div_pow]
    omega
  cases o
  · simpa [emit32, readField] using hjoin
  · simpa [emit32, readField] using hjoin

theorem parsePacket_terminator (o : ByteOrder) (fuel : ℕ) (rest : List Byte) :
    parsePacket o (fuel + 1) (emit32 o terminator ++ rest) = some ([], rest) := by
  rw [parsePacket, readField_emit32]
  rfl

/-- An entry in front is read as an entry, and what follows it is read as before (R193). -/
theorem parsePacket_emitEntry {o : ByteOrder} {fuel k : ℕ} {bytes rest : List Byte} {es : List Entry}
    (hk : BitVec.ofNat 32 k ≠ terminator) (b : Cplx) (h : parsePacket o fuel bytes = some (es, rest)) :
    parsePacket o (fuel + 1) (emitEntry o k b ++ bytes) = some (⟨BitVec.ofNat 32 k, b⟩ :: es, rest) := by
  rw [emitEntry, List.append_assoc, List.append_assoc, parsePacket, readField_emit32]
  dsimp only
  rw [if_neg (show BitVec.ofNat 32 k ≠ 0x7FC00000 from hk), readField_emit32]
  dsimp only
  rw [readField_emit32]
  dsimp only
  rw [h]

/-- With fuel for every index position the receiver reads all entries and stops behind the terminator. -/
theorem parsePacket_emitEntries (o : ByteOrder) (bins : List Cplx) (rest : List Byte) {ks : List ℕ} {fuel : ℕ}
    (hks : ∀ k ∈ ks, BitVec.ofNat 32 k ≠ terminator) (hfuel : ks.length < fuel) :
    parsePacket o fuel (emitEntries o bins ks ++ (emit32 o terminator ++ rest)) =
      some (ks.map fun k => ⟨BitVec.ofNat 32 k, binAt bins k⟩, rest) := by
  induction ks generalizing fuel with
  | nil =>
    obtain ⟨fuel, rfl⟩ := Nat.exists_eq_add_one.2 hfuel
    exact parsePacket_terminator o fuel rest
  | cons k ks ih =>
    obtain ⟨hk, hks⟩ := List.forall_mem_cons.1 hks
    obtain ⟨fuel, rfl⟩ := Nat.exists_eq_add_one.2 (Nat.zero_lt_of_lt hfuel)
    rw [emitEntries_cons, List.append_assoc]
    exact parsePacket_emitEntry hk _ (ih hks (Nat.lt_of_succ_lt_succ hfuel))

/-- Settles O58, by induction on the entries: none of their indices is the terminator. -/
theorem receiverRecoversThePacket : Obligations.ReceiverRecoversThePacket := by
  unfold Obligations.ReceiverRecoversThePacket
  intro c bins rest hc
  refine ⟨?_, includedBins_pairwise c bins⟩
  rw [packet, List.append_assoc]
  exact parsePacket_emitEntries _ _ _ (includedBins_ne_terminator hc bins)
    (Nat.lt_succ_of_le (includedBins_length_le c bins))

end Sys2Proof.Machine

namespace Sys2Proof.Machine

/-! ## O16, O26, O27: the control and status commands (spec/43_control.md R210 to R215) -/

/-- Settles O16: the arm of `NOP` is its response alone. -/
theorem nopDoesNothing : Obligations.NopDoesNothing := by
  unfold Obligations.NopDoesNothing
  intro s
  rw [exec, execNop]

/-- A defined selector answers its value (R211). -/
theorem exec_rdStatus_of_some {sel : Word32} {x : Selector} (h : selectorOf sel = some x) (s : State) :
    exec (.rdStatus sel) s = .next (respond { ok := true, data := statusValue s x } s) := by
  rw [exec, execRdStatus, h]

/-- An undefined selector faults (R211). -/
theorem exec_rdStatus_of_none {sel : Word32} (h : selectorOf sel = none) (s : State) :
    exec (.rdStatus sel) s = .next (faulted 0x0C s) := by
  rw [exec, execRdStatus, h, raiseFault_eq_faulted]
  rfl

/-- No selector above 3 is defined (R90). -/
theorem selectorOf_of_three_lt {sel : Word32} (h : 3 < sel.toNat) : selectorOf sel = none := by
  have hne {k : Word32} (hk : k.toNat ≤ 3) : sel ≠ k := by rintro rfl; omega
  rw [selectorOf, if_neg (hne (by decide)), if_neg (hne (by decide)), if_neg (hne (by decide)), if_neg (hne (by decide))]

/-- Settles O26, by the selector's value. -/
theorem rdStatusFollowsItsRule : Obligations.RdStatusFollowsItsRule := by
  unfold Obligations.RdStatusFollowsItsRule
  intro sel s
  have hsel {k : Word32} {x : Selector} (hk : selectorOf k = some x) (h : sel.toNat = k.toNat) :
      exec (.rdStatus sel) s = .next (respond { ok := true, data := statusValue s x } s) :=
    exec_rdStatus_of_some (by rw [BitVec.eq_of_toNat_eq h, hk]) s
  refine ⟨?status, ?fill, ?config, ?thresh, ?undefined⟩
  case status => exact hsel (k := 0) (x := .status) rfl
  case fill => exact hsel (k := 1) (x := .fill) rfl
  case config => exact hsel (k := 2) (x := .config) rfl
  case thresh => exact hsel (k := 3) (x := .thresh) rfl
  case undefined => exact fun h => exec_rdStatus_of_none (selectorOf_of_three_lt h) s

/-- The register `STATE` as a number (R23). -/
theorem stateWord_toNat (s : State) :
    (stateWord s).toNat =
      (slotBit s.active).toNat + 2 * s.concurrent.toNat + 2 ^ 3 * s.full0.toNat + 2 ^ 4 * s.full1.toNat := by
  refine (toNat_append_eq (n := 4) _ (slotBit s.active)).trans ?_
  simp only [toNat_append_eq, flagBit_toNat]
  ring

/-- The status word as a number, `STATE` in its low five bits (R212). -/
theorem statusWord_toNat (s : State) :
    (statusWord s).toNat =
      (stateWord s).toNat + 2 ^ 5 * s.wIn.toNat + 2 ^ 6 * s.rIn.toNat + 2 ^ 7 * s.md.toNat + 2 ^ 8 * s.specValid.toNat +
        2 ^ 9 * s.lastWValid.toNat + 2 ^ 10 * (slotBit s.lastW).toNat + 2 ^ 16 * s.err.toNat := by
  refine (toNat_append_eq (n := 27) _ (stateWord s)).trans ?_
  simp only [toNat_append_eq, flagBit_toNat, BitVec.ofNat_eq_ofNat, BitVec.toNat_zero]
  ring

/-- The configuration word as a number: a legal `LOG2N` fits its five bits (R7, R214). -/
theorem configWord_toNat {c : Config} (h : c.log2n ≤ 30) :
    (configWord c).toNat = c.log2n + 2 ^ 8 * (byteOrderBit c.byteOrder).toNat := by
  have hfits : c.log2n % 2 ^ 5 = c.log2n := Nat.mod_eq_of_lt (by omega)
  refine (toNat_append_eq (n := 27) _ (BitVec.ofNat 5 c.log2n)).trans ?_
  simp only [toNat_append_eq, BitVec.ofNat_eq_ofNat, BitVec.toNat_ofNat, hfits]
  ring

/-- Settles O27: each word is a concatenation, each part weighted by the widths of the parts below it. -/
theorem statusWordsLayout : Obligations.StatusWordsLayout := by
  unfold Obligations.StatusWordsLayout
  refine ⟨fun s => ?_, fun c _ hc => ?_, fun s => ⟨rfl, bne_iff_ne⟩⟩
  · rw [statusWord_toNat, stateWord_toNat]
  · rw [configWord_toNat hc]
    cases c.byteOrder <;> rfl

end Sys2Proof.Machine

namespace Sys2Proof.Machine

/-! ## O40: what each port can never write (spec/20_memory.md R52, spec/60_exceptions.md R234) -/

/-- `t` has the state of `s` that is the producer's to write. -/
structure ProducerKept (s t : State) : Prop where
  slots : SameSlots s t
  wIn : t.wIn = s.wIn
  fill : t.fill = s.fill
  lastWValid : t.lastWValid = s.lastWValid
  lastW : t.lastW = s.lastW
  md : t.md = s.md

/-- `t` has the state of `s` that is the consumer's to write. -/
structure ConsumerKept (s t : State) : Prop where
  spec : t.spec = s.spec
  specValid : t.specValid = s.specValid
  out : t.out = s.out
  rIn : t.rIn = s.rIn

theorem raiseFault_producerKept (s : State) (f : FaultCode) : ProducerKept s (raiseFault f s) := by
  refine ⟨raiseFault_sameSlots s f, ?_, ?_, ?_, ?_, ?_⟩ <;> simp

theorem raiseFault_consumerKept (s : State) (f : FaultCode) : ConsumerKept s (raiseFault f s) := by
  constructor <;> simp

/-- The four commands that port P refuses. -/
theorem exec_producerKept {i : Instr} {s t : State} (hi : i.acceptedOn .portP = false) (h : exec i s = .next t) :
    ProducerKept s t := by
  have hfault := raiseFault_producerKept s
  have hslots : SameSlots (storedBy i s) t := exec_slots h
  cases i with
  | nop | pStart | pPush _ | pStop | rdStatus _ => cases hi
  | cStart =>
    refine of_guard hfault h fun _ h => ?_
    split at h <;> cases h <;> exact ⟨hslots, by simp, by simp, by simp, by simp, by simp⟩
  | cFft | cEnd | cCompress =>
    refine of_guard hfault h fun _ h => ?_
    cases h
    exact ⟨hslots, by simp, by simp, by simp, by simp, by simp⟩

/-- The three commands that port C refuses. -/
theorem exec_consumerKept {i : Instr} {s t : State} (hi : i.acceptedOn .portC = false) (h : exec i s = .next t) :
    ConsumerKept s t := by
  have hfault := raiseFault_consumerKept s
  cases i with
  | nop | cStart | cFft | cEnd | cCompress | rdStatus _ => cases hi
  | pStart =>
    refine of_guard hfault h fun _ h => of_guard hfault h fun _ h => ?_
    cases h
    cases sameSlot s <;> constructor <;> simp
  | pPush _ | pStop =>
    refine of_guard hfault h fun _ h => of_guard hfault h fun _ h => of_guard hfault h fun _ h => ?_
    cases h
    constructor <;> simp

/-- Settles O40: a command that a port refuses faults or writes the other agent's state. -/
theorem eachPortWritesOnlyItsOwnState : Obligations.EachPortWritesOnlyItsOwnState := by
  unfold Obligations.EachPortWritesOnlyItsOwnState
  intro i s t h
  refine ⟨fun hi => ?_, fun hi => ?_⟩
  · obtain ⟨⟨hslot0, hslot1⟩, hw, hfill, hvalid, hlast, hmd⟩ := exec_producerKept hi h
    exact ⟨hslot0, hslot1, hw, hfill, hvalid, hlast, hmd⟩
  · obtain ⟨hspec, hvalid, hout, hr⟩ := exec_consumerKept hi h
    exact ⟨hspec, hvalid, hout, hr⟩

end Sys2Proof.Machine

namespace Sys2Proof.Machine

/-! ## O13, O14: the priority table (spec/60_exceptions.md R222 to R224)

The table is met in two halves. Its first four rows are the checks of the decoder: a word fails one of the first three or is
the word of a command (`word_cases`), whose port is then checked. The others are the checks of the command's rule, which
`execFault` lists in the order of the rule: `exec_reports` ties it to `exec`, `firstFault_encode` to the table. -/

/-- The checks of a command's rule, in its order (R114 to R119, R160, R190, R211). -/
def execFault (i : Instr) (s : State) : Option FaultCode :=
  match i with
  | .nop => none
  | .pStart => if s.md then some .ingestHalted else if s.wIn then some .pReenter else none
  | .pPush _ =>
    if s.md then some .ingestHalted else if !s.wIn then some .pNotWriting
    else if s.fill = s.cfg.n then some .windowOverflow else none
  | .pStop =>
    if s.md then some .ingestHalted else if !s.wIn then some .pNotWriting
    else if s.fill ≠ s.cfg.n then some .windowIncomplete else none
  | .cStart => if s.rIn then some .cReenter else none
  | .cFft | .cEnd => if !s.rIn then some .cNotReading else none
  | .cCompress => if !s.specValid then some .noSpectrum else none
  | .rdStatus sel => if 3 < sel.toNat then some .badSelector else none

/-- The outcome is the fault named, from `s`; or, where none is, the answer `OK = 1` without a code and with `ERR` kept. -/
inductive Reports (s : State) : Option FaultCode → Host.Outcome State Fault Refusal → Prop
  | fault (f : FaultCode) : Reports s (some f) (.next (raiseFault f s))
  | success {r : Response} {u : State} (hok : r.ok = true) (hcode : r.errcode = 0) (herr : u.err = s.err)
      (hkept : PortsKept s u) : Reports s none (.next (respond r u))

/-- A check of a rule: its fault, or what the rest of the rule reports. -/
theorem Reports.guard {s : State} {c : Prop} [Decidable c] {f : FaultCode} {later : Option FaultCode}
    {rest : Host.Outcome State Fault Refusal} (hrest : Reports s later rest) :
    Reports s (if c then some f else later) (if c then .next (raiseFault f s) else rest) := by
  split
  · exact .fault f
  · exact hrest

theorem selectorOf_of_le_three {sel : Word32} (h : ¬3 < sel.toNat) : ∃ x, selectorOf sel = some x := by
  obtain ⟨k, hk, rfl⟩ : ∃ k ≤ 3, sel = BitVec.ofNat 32 k := ⟨sel.toNat, by omega, by simp⟩
  interval_cases k <;> exact ⟨_, rfl⟩

/-- A command reports the first check of its rule that fails. -/
theorem exec_reports (i : Instr) (s : State) : Reports s (execFault i s) (exec i s) := by
  cases i with
  | nop => exact .success rfl rfl rfl (by constructor <;> rfl)
  | pStart =>
    refine .guard (.guard (.success rfl rfl ?_ ?_))
    · cases sameSlot s <;> simp
    · cases sameSlot s <;> constructor <;> simp
  | pPush v => exact .guard (.guard (.guard (.success rfl rfl (by simp) (by constructor <;> simp))))
  | pStop => exact .guard (.guard (.guard (.success rfl rfl (by simp) (by constructor <;> simp))))
  | cStart =>
    refine .guard ?_
    split
    · exact .success rfl rfl rfl (by constructor <;> rfl)
    · exact .success rfl rfl rfl (by constructor <;> rfl)
  | cFft => exact .guard (.success rfl rfl rfl (by constructor <;> rfl))
  | cEnd => exact .guard (.success rfl rfl (by simp) (by constructor <;> simp))
  | cCompress => exact .guard (.success rfl rfl rfl (by constructor <;> rfl))
  | rdStatus sel =>
    by_cases hsel : 3 < sel.toNat
    · rw [execFault, if_pos hsel, exec, execRdStatus, selectorOf_of_three_lt hsel]
      exact .fault .badSelector
    · obtain ⟨x, hx⟩ := selectorOf_of_le_three hsel
      rw [execFault, if_neg hsel, exec_rdStatus_of_some hx]
      exact .success rfl rfl rfl (by constructor <;> rfl)

/-- A word has an opcode that no command has, or a bit set that its command leaves 0, or it is the word of a command
(R86). -/
theorem word_cases (w : Word64) :
    (∀ i, opcOf i ≠ opcField w) ∨
    (∃ i, opcField w = opcOf i ∧ (rsvField w ≠ 0 ∨ takesOperand i = false ∧ operandField w ≠ 0)) ∨
    ∃ i, w = encode i := by
  by_cases hknown : ∃ i, opcField w = opcOf i
  · obtain ⟨i, hopc⟩ := hknown
    by_cases hzero : rsvField w ≠ 0 ∨ takesOperand i = false ∧ operandField w ≠ 0
    · exact .inr (.inl ⟨i, hopc, hzero⟩)
    · obtain ⟨j, hselect, htakes⟩ := selectCommand_opcOf i (operandField w)
      push Not at hzero
      obtain ⟨hrsv, hoperand⟩ := hzero
      have hword : decodeWord w = .ok j :=
        decodeWord_of_checks (by rw [hopc, hselect]) hrsv fun hj => hoperand (htakes ▸ hj)
      exact .inr (.inr ⟨j, eq_encode_of_decodeWord hword⟩)
  · exact .inl fun i hi => hknown ⟨i, hi.symm⟩

/-- The code of the first row that holds. -/
def firstRow (rows : List (Bool × FaultCode)) : Option FaultCode := (rows.find? fun row => row.1).map fun row => row.2

theorem firstFault_eq_firstRow (p : Port) (w : Word64) (s : State) : firstFault p w s = firstRow (faultRows p w s) := rfl

@[simp] theorem firstRow_nil : firstRow [] = none := rfl

@[simp] theorem firstRow_cons (b : Bool) (f : FaultCode) (rows : List (Bool × FaultCode)) :
    firstRow ((b, f) :: rows) = if b = true then some f else firstRow rows := by
  cases b <;> rfl

/-- The first row of the table. -/
theorem firstFault_illegalOpcode {w : Word64} (h : ∀ i, opcOf i ≠ opcField w) (p : Port) (s : State) :
    firstFault p w s = some .illegalOpcode := by
  have hopc : w.toNat % 256 ∉ [0x00, 0x01, 0x02, 0x03, 0x11, 0x12, 0x13, 0x14, 0x20] := by
    intro hmem
    obtain ⟨i, hi⟩ := exists_opcOf _ hmem
    exact h i (opcField_eq_opcOf hi).symm
  rw [firstFault_eq_firstRow, faultRows, firstRow_cons]
  exact if_pos (by simpa using hopc)

theorem rsvField_eq_zero_iff (w : Word64) : rsvField w = 0 ↔ w.toNat / 256 % 2 ^ 24 = 0 := by
  rw [← rsvField_toNat, BitVec.toNat_eq]
  rfl

theorem operandField_eq_zero_iff (w : Word64) : operandField w = 0 ↔ w.toNat / 2 ^ 32 = 0 := by
  rw [← operandField_toNat, BitVec.toNat_eq]
  rfl

theorem opcOf_of_no_operand {i : Instr} (h : takesOperand i = false) :
    (opcOf i).toNat ≠ 0x02 ∧ (opcOf i).toNat ≠ 0x20 := by
  cases i with
  | pPush _ | rdStatus _ => cases h
  | nop | pStart | pStop | cStart | cFft | cEnd | cCompress => decide

/-- The second and third rows, of a word whose opcode is a command's. -/
theorem firstFault_reservedNonzero {w : Word64} {i : Instr} (hopc : opcField w = opcOf i)
    (h : rsvField w ≠ 0 ∨ takesOperand i = false ∧ operandField w ≠ 0) (p : Port) (s : State) :
    firstFault p w s = some .reservedNonzero := by
  have hnum : w.toNat % 256 = (opcOf i).toNat := by rw [← opcField_toNat, hopc]
  have hknown : [0x00, 0x01, 0x02, 0x03, 0x11, 0x12, 0x13, 0x14, 0x20].contains (w.toNat % 256) = true := by
    rw [hnum, List.contains_iff_mem]
    exact opcOf_mem i
  rw [firstFault_eq_firstRow, faultRows, firstRow_cons, hknown, if_neg (by decide), firstRow_cons, firstRow_cons]
  by_cases hrsv : w.toNat / 256 % 2 ^ 24 = 0
  · obtain ⟨htakes, hoperand⟩ := h.resolve_left (not_not.2 ((rsvField_eq_zero_iff w).2 hrsv))
    obtain ⟨hpush, hstatus⟩ := opcOf_of_no_operand htakes
    have hrow : (w.toNat / 2 ^ 32 != 0 && w.toNat % 256 != 0x02 && w.toNat % 256 != 0x20) = true := by
      rw [hnum, bne_iff_ne.2 (mt (operandField_eq_zero_iff w).2 hoperand), bne_iff_ne.2 hpush, bne_iff_ne.2 hstatus]
      rfl
    rw [hrsv, if_neg (by decide), if_pos hrow]
  · exact if_pos (bne_iff_ne.2 hrsv)

/-- Of a command's own word the first three rows are false, the fourth is the port check, and the others are the checks of
the command's rule. -/
theorem firstFault_encode (p : Port) (i : Instr) (s : State) :
    firstFault p (encode i) s = if i.acceptedOn p = true then execFault i s else some .wrongPort := by
  have hopc : (encode i).toNat % 256 = (opcOf i).toNat := by rw [← opcField_toNat, opcField_encode]
  have hrsv : (encode i).toNat / 256 % 2 ^ 24 = 0 := by rw [← rsvField_toNat, rsvField_encode]; rfl
  have hoperand : (encode i).toNat / 2 ^ 32 = (operandOf i).toNat := by rw [← operandField_toNat, operandField_encode]
  simp only [firstFault_eq_firstRow, faultRows, firstRow_cons, Bool.and_eq_true, decide_eq_true_eq, hopc, hrsv, hoperand]
  cases i <;> cases p <;> simp [opcOf, operandOf, Instr.acceptedOn, execFault]

/-- The table is the checks of the decoder and then those of the command's rule. -/
theorem firstFault_cases (p : Port) (w : Word64) (s : State) :
    (∃ f, decode p w = .error f ∧ firstFault p w s = some f) ∨
    ∃ i, decode p w = .ok i ∧ firstFault p w s = execFault i s := by
  rcases word_cases w with hopc | ⟨i, hopc, hset⟩ | ⟨i, rfl⟩
  · exact .inl ⟨_, decode_illegalOpcode hopc p, firstFault_illegalOpcode hopc p s⟩
  · exact .inl ⟨_, decode_reservedNonzero hopc hset p, firstFault_reservedNonzero hopc hset p s⟩
  · rw [decode_encode, firstFault_encode]
    split
    · exact .inr ⟨i, rfl, rfl⟩
    · exact .inl ⟨_, rfl, rfl⟩

theorem runCommand_of_error {p : Port} {w : Word64} {f : FaultCode} (h : decode p w = .error f) (s : State) :
    runCommand p w s = .next (raiseFault f s) := by
  simp [runCommand, h]

/-- A command word reports the first fault of the table, or succeeds. -/
theorem runCommand_reports (p : Port) (w : Word64) (s : State) : Reports s (firstFault p w s) (runCommand p w s) := by
  rcases firstFault_cases p w s with ⟨f, hdecode, hfault⟩ | ⟨i, hdecode, hfault⟩
  · rw [hfault, runCommand_of_error hdecode]
    exact .fault f
  · rw [hfault, runCommand_of_decode hdecode]
    exact exec_reports i s

/-- The response to a fault is its code alone (R88, R222). -/
theorem responseWord_fault (code : BitVec 8) : (responseWord { errcode := code }).toNat = 2 ^ 8 * code.toNat := by
  obtain ⟨hlayout, -⟩ := responseWordLayoutAndFaultCodes
  rw [hlayout]
  simp [slotBit]

/-- Settles O13: the word reports the table's first fault, and a fault's state is `raiseFault_eq`. -/
theorem firstFaultOfTheTableAndNothingElse : Obligations.FirstFaultOfTheTableAndNothingElse := by
  unfold Obligations.FirstFaultOfTheTableAndNothingElse
  intro p w s f hfault
  refine ⟨?_, responseWord_fault f.toByte⟩
  have hreports := runCommand_reports p w s
  rw [hfault] at hreports
  generalize runCommand p w s = outcome at hreports ⊢
  cases hreports
  rw [raiseFault_eq]

/-- Settles O14: where the table names no fault the word decodes, and its command succeeds. -/
theorem noFaultMeansSuccess : Obligations.NoFaultMeansSuccess := by
  unfold Obligations.NoFaultMeansSuccess
  intro p w s hnone
  rcases firstFault_cases p w s with ⟨f, -, hfault⟩ | ⟨i, hdecode, -⟩
  · simp [hnone] at hfault
  have hreports := runCommand_reports p w s
  rw [hnone] at hreports
  generalize runCommand p w s = outcome at hreports ⊢
  cases hreports with
  | @success r u hok hcode herr hkept =>
    refine ⟨i, respond r u, r, hdecode, rfl, by simpa using herr, hok, hcode, ?_⟩
    rw [respond_responsesOn, if_pos hkept.cur.symm, hkept.responsesOn]

end Sys2Proof.Machine

namespace Sys2Proof.Machine

/-! ## O42: the unspecified contents are unobservable (spec/70_reset_and_hazards.md R252)

Two parts, each kept by every command. `SameOutsideSlots` says that the states agree in everything but the slots, with the
spectrum buffer once it is valid: the one command that reads a slot is `C.FFT`, and it reads the held one. The live slots
follow by `exec_slots`: a slot that is live after a command was live before, or the command has just cleared it. -/

/-- `s` with other contents of the slots and of the spectrum buffer. -/
def State.withContents (s : State) (a b c : List Cplx) : State := { s with slot0 := a, slot1 := b, spec := c }

/-- `t` is `s` but for the slots, and for the spectrum buffer before the first `C.FFT`. -/
structure SameOutsideSlots (s t : State) : Prop where
  rest_eq : t = s.withContents t.slot0 t.slot1 t.spec
  spec_eq : s.specValid = true → t.spec = s.spec

theorem sameOutsideSlots_of_withContents {s t : State} {a b c : List Cplx} (ht : t = s.withContents a b c)
    (hspec : s.specValid = true → c = s.spec) : SameOutsideSlots s t := by
  subst ht
  exact ⟨rfl, hspec⟩

/-! ### The operations do not look at the contents -/

section

variable (s : State) (a b c : List Cplx)

theorem respond_withContents (r : Response) : respond r (s.withContents a b c) = (respond r s).withContents a b c := by
  cases hcur : s.cur <;> simp [respond, State.withContents, hcur]

theorem raiseFault_withContents (f : FaultCode) :
    raiseFault f (s.withContents a b c) = (raiseFault f s).withContents a b c := by
  rw [raiseFault_eq, raiseFault_eq, ← respond_withContents]
  rfl

theorem setFull_withContents (x : Slot) (v : Bool) :
    setFull x v (s.withContents a b c) = (setFull x v s).withContents a b c := by
  cases x <;> rfl

theorem published_withContents : published (s.withContents a b c) = (published s).withContents a b c :=
  congrArg (fun u : State => { u with wIn := false, lastWValid := true, lastW := s.active })
    (setFull_withContents s a b c s.active true)

theorem released_withContents : released (s.withContents a b c) = (released s).withContents a b c :=
  congrArg (fun u : State => { u with rIn := false }) (setFull_withContents s a b c (readSlot s) false)

theorem flipRoles_withContents : flipRoles (s.withContents a b c) = (flipRoles s).withContents a b c :=
  congrArg (fun u : State => { u with active := otherSlot s.active })
    (setFull_withContents s a b c (otherSlot s.active) false)

/-- `Exit()` (R112) before the flip is decided: one agent fewer inside. -/
def departed (s : State) : State := { s with concurrent := s.concurrent - 1 }

theorem exitSection_withContents :
    exitSection (s.withContents a b c) = ((exitSection s).1.withContents a b c, (exitSection s).2) := by
  by_cases hdue : flipDue (departed s) = true
  · have hs : exitSection s = (flipRoles (departed s), true) := if_pos hdue
    have ht : exitSection (s.withContents a b c) = (flipRoles ((departed s).withContents a b c), true) := if_pos hdue
    rw [ht, hs, flipRoles_withContents]
  · have hs : exitSection s = (departed s, false) := if_neg hdue
    have ht : exitSection (s.withContents a b c) = ((departed s).withContents a b c, false) := if_neg hdue
    rw [ht, hs]

end

/-! ### Every command keeps the agreement outside the slots -/

theorem SameOutsideSlots.respond {s t : State} (hst : SameOutsideSlots s t) (r : Response) :
    SameOutsideSlots (respond r s) (respond r t) := by
  obtain ⟨hrest, hspec⟩ := hst
  rw [hrest, respond_withContents]
  exact ⟨rfl, by simpa⟩

theorem SameOutsideSlots.raiseFault {s t : State} (hst : SameOutsideSlots s t) (f : FaultCode) :
    SameOutsideSlots (raiseFault f s) (raiseFault f t) := by
  obtain ⟨hrest, hspec⟩ := hst
  rw [hrest, raiseFault_withContents]
  exact ⟨rfl, by simpa⟩

/-- Leaving a critical section, and the answer that says whether it flipped. -/
theorem SameOutsideSlots.leave {s t : State} (hst : SameOutsideSlots s t) (answer : Bool → Response) :
    SameOutsideSlots (Machine.respond (answer (exitSection s).2) (exitSection s).1)
      (Machine.respond (answer (exitSection t).2) (exitSection t).1) := by
  obtain ⟨hrest, hspec⟩ := hst
  rw [hrest, exitSection_withContents]
  exact SameOutsideSlots.respond ⟨rfl, by simpa⟩ _

/-- A check that both states meet or both pass. -/
theorem SameOutsideSlots.of_guard {p : Prop} [Decidable p] {f : FaultCode} {s t s' t' : State}
    {rest rest' : Host.Outcome State Fault Refusal} (hst : SameOutsideSlots s t)
    (h : (if p then .next (Machine.raiseFault f s) else rest) = .next s')
    (h' : (if p then .next (Machine.raiseFault f t) else rest') = .next t')
    (hrest : ¬p → rest = .next s' → rest' = .next t' → SameOutsideSlots s' t') : SameOutsideSlots s' t' := by
  rcases guard_cases h with ⟨hp, rfl⟩ | ⟨hp, h⟩
  · rw [if_pos hp] at h'
    cases h'
    exact hst.raiseFault f
  · exact hrest hp h ((if_neg hp).symm.trans h')

/-- The held slot is the one slot that a command reads into what lies outside the slots (`C.FFT`, R160). -/
theorem exec_sameOutsideSlots {i : Instr} {s t s' t' : State} (hst : SameOutsideSlots s t)
    (hheld : s.rIn = true → slotOf t (readSlot s) = slotOf s (readSlot s)) (h : exec i s = .next s')
    (h' : exec i t = .next t') : SameOutsideSlots s' t' := by
  have hrest := hst.rest_eq
  have hspec := hst.spec_eq
  generalize t.slot0 = a, t.slot1 = b, t.spec = c at hrest hspec
  subst hrest
  cases i with
  | nop =>
    cases h
    cases h'
    exact hst.respond _
  | pStart =>
    refine hst.of_guard h h' fun _ h h' => hst.of_guard h h' fun _ h h' => ?_
    cases h
    cases h'
    refine SameOutsideSlots.respond ?_ _
    rw [show sameSlot (s.withContents a b c) = sameSlot s from rfl]
    cases sameSlot s with
    | true => exact ⟨rfl, hspec⟩
    | false =>
      simp only [clearSlot_eq]
      exact ⟨rfl, hspec⟩
  | pPush v =>
    refine hst.of_guard h h' fun _ h h' => hst.of_guard h h' fun _ h h' => hst.of_guard h h' fun _ h h' => ?_
    simp only [slotWrite_eq] at h h'
    cases h
    cases h'
    exact SameOutsideSlots.respond ⟨rfl, hspec⟩ _
  | pStop =>
    refine hst.of_guard h h' fun _ h h' => hst.of_guard h h' fun _ h h' => hst.of_guard h h' fun _ h h' => ?_
    cases h
    cases h'
    exact (sameOutsideSlots_of_withContents (published_withContents s a b c) (by simpa [published])).leave
      fun flip => { ok := true, slot := s.active, flip }
  | cStart =>
    refine hst.of_guard h h' fun _ h h' => ?_
    by_cases hfull : fullOf s (readSlot s) = true
    · cases (if_pos hfull).symm.trans h
      cases (if_pos hfull).symm.trans h'
      exact SameOutsideSlots.respond ⟨rfl, hspec⟩ _
    · cases (if_neg hfull).symm.trans h
      cases (if_neg hfull).symm.trans h'
      exact hst.respond _
  | cFft =>
    refine hst.of_guard h h' fun hr h h' => ?_
    cases h
    cases h'
    refine SameOutsideSlots.respond ⟨rfl, fun _ => ?_⟩ _
    exact congrArg (realFft s.cfg) (hheld (by simpa using hr))
  | cEnd =>
    refine hst.of_guard h h' fun _ h h' => ?_
    cases h
    cases h'
    exact (sameOutsideSlots_of_withContents (released_withContents s a b c) (by simpa [released])).leave
      fun flip => { ok := true, flip }
  | cCompress =>
    refine hst.of_guard h h' fun hvalid h h' => ?_
    obtain rfl : c = s.spec := hspec (by simpa using hvalid)
    cases h
    cases h'
    refine SameOutsideSlots.respond ?_ _
    exact ⟨rfl, fun _ => rfl⟩
  | rdStatus sel =>
    simp only [exec, execRdStatus] at h h'
    cases hsel : selectorOf sel with
    | none =>
      simp only [hsel] at h h'
      cases h
      cases h'
      exact hst.raiseFault _
    | some x =>
      simp only [hsel] at h h'
      cases h
      cases h'
      have hvalue : statusValue (s.withContents a b c) x = statusValue s x := by cases x <;> rfl
      rw [hvalue]
      exact hst.respond _

/-! ### Every command keeps the live slots -/

theorem slotLive_iff (s : State) (x : Slot) : slotLive s x = true ↔ s.Live x := by simp [slotLive, State.Live]

/-- A slot that is live after `P.START` was live before, or it is the write slot and the command has cleared it. -/
theorem pStart_live_or_cleared {s s' : State} {x : Slot} (hs : s.Inv) (h : exec .pStart s = .next s') (hx : s'.Live x) :
    s.Live x ∨ (x = s.active ∧ s.md = false ∧ s.wIn = false ∧ sameSlot s = false) := by
  rcases guard_cases h with ⟨-, rfl⟩ | ⟨hmd, hrest⟩
  · exact .inl (raiseFault_noNewLive s _ x hx)
  rcases guard_cases hrest with ⟨-, rfl⟩ | ⟨hw, -⟩
  · exact .inl (raiseFault_noNewLive s _ x hx)
  rw [Bool.not_eq_true] at hmd hw
  obtain ⟨hactive, -, hfull, -⟩ := Roles.mk.inj (pStart_roles hmd hw h)
  rcases hx with hx | ⟨-, rfl⟩
  · exact .inl (.inl ((congrFun hfull x).symm.trans hx))
  · cases hsame : sameSlot s with
    | true => exact .inl (.inl (hactive ▸ hs.full_active.trans hsame))
    | false => exact .inr ⟨hactive, hmd, hw, rfl⟩

theorem slotOf_clearSlot_withContents (s : State) (a b c : List Cplx) (x : Slot) :
    slotOf (clearSlot x (s.withContents a b c)) x = slotOf (clearSlot x s) x := by
  cases x <;> rfl

theorem slotOf_ite_congr {p : Prop} [Decidable p] {u v s t : State} {x : Slot} (huv : slotOf v x = slotOf u x)
    (hst : slotOf t x = slotOf s x) : slotOf (if p then v else t) x = slotOf (if p then u else s) x := by
  split
  · exact huv
  · exact hst

/-- Where two states agree on a slot, so do the stores of a command into it. -/
theorem slotOf_storedBy_congr {s : State} {a b c : List Cplx} {x : Slot}
    (hx : slotOf (s.withContents a b c) x = slotOf s x) (i : Instr) :
    slotOf (storedBy i (s.withContents a b c)) x = slotOf (storedBy i s) x := by
  by_cases hactive : x = s.active
  · subst hactive
    cases i with
    | pPush v =>
      refine slotOf_ite_congr ?_ hx
      calc slotOf (slotWrite s.active s.fill (sampleElement v) (s.withContents a b c)) s.active
          = (slotOf (s.withContents a b c) s.active).set s.fill (sampleElement v) := slotOf_setSlot_same _ _ _
        _ = (slotOf s s.active).set s.fill (sampleElement v) := by rw [hx]
        _ = slotOf (slotWrite s.active s.fill (sampleElement v) s) s.active := (slotOf_setSlot_same _ _ _).symm
    | pStart => exact slotOf_ite_congr (slotOf_clearSlot_withContents s a b c s.active) hx
    | nop | pStop | cStart | cFft | cEnd | cCompress | rdStatus _ => exact hx
  · have hother : x ≠ (s.withContents a b c).active := hactive
    rw [slotOf_storedBy_other hother, slotOf_storedBy_other hactive, hx]

/-- A `P.START` that clears the write slot leaves the same there, whatever it held. -/
theorem slotOf_storedBy_of_cleared {s : State} {a b c : List Cplx}
    (hstart : s.md = false ∧ s.wIn = false ∧ sameSlot s = false) :
    slotOf (storedBy .pStart (s.withContents a b c)) s.active = slotOf (storedBy .pStart s) s.active := by
  have hs : storedBy .pStart s = clearSlot s.active s := if_pos hstart
  have ht : storedBy .pStart (s.withContents a b c) = clearSlot s.active (s.withContents a b c) := if_pos hstart
  rw [hs, ht, slotOf_clearSlot_withContents]

/-- The stores of a command agree on every slot that is live after it: the slot was live before, so the states agree on it,
or the command clears it in both. -/
theorem slotOf_storedBy_of_live {i : Instr} {s s' t : State} {x : Slot} (hs : s.Inv) (hst : SameButUnspecified s t)
    (h : exec i s = .next s') (hx : s'.Live x) : slotOf (storedBy i t) x = slotOf (storedBy i s) x := by
  obtain ⟨hrest, hslots, -⟩ := hst
  have hlive : s.Live x → slotOf (storedBy i t) x = slotOf (storedBy i s) x := fun hbefore => by
    have hagree := hslots x ((slotLive_iff s x).2 hbefore)
    rw [hrest] at hagree ⊢
    exact slotOf_storedBy_congr hagree i
  by_cases hi : i = .pStart
  · subst hi
    rcases pStart_live_or_cleared hs h hx with hbefore | ⟨rfl, hstart⟩
    · exact hlive hbefore
    · rw [hrest]
      exact slotOf_storedBy_of_cleared hstart
  · exact hlive (exec_noNewLive hs hi h x hx)

theorem SameButUnspecified.outside {s t : State} (hst : SameButUnspecified s t) : SameOutsideSlots s t :=
  ⟨hst.rest_eq, hst.spec_eq⟩

theorem SameButUnspecified.refl (s : State) : SameButUnspecified s s := ⟨rfl, fun _ _ => rfl, fun _ => rfl⟩

theorem raiseFault_sameButUnspecified (f : FaultCode) {s t : State} (hst : SameButUnspecified s t) :
    SameButUnspecified (raiseFault f s) (raiseFault f t) where
  rest_eq := (hst.outside.raiseFault f).rest_eq
  slots_eq x hx := by simpa using hst.slots_eq x (by simpa [slotLive] using hx)
  spec_eq := (hst.outside.raiseFault f).spec_eq

/-- The held slot is full, so it is live (R118). -/
theorem exec_sameButUnspecified {i : Instr} {s t s' t' : State} (hs : s.Inv) (hst : SameButUnspecified s t)
    (h : exec i s = .next s') (h' : exec i t = .next t') : SameButUnspecified s' t' := by
  have hheld : s.rIn = true → slotOf t (readSlot s) = slotOf s (readSlot s) := fun hr =>
    hst.slots_eq _ ((slotLive_iff s _).2 (.inl (hs.held_full hr)))
  obtain ⟨hrest, hspec⟩ := exec_sameOutsideSlots hst.outside hheld h h'
  refine ⟨hrest, fun x hx => ?_, hspec⟩
  rw [(exec_slots h).slotOf, (exec_slots h').slotOf]
  exact slotOf_storedBy_of_live hs hst h ((slotLive_iff s' x).1 hx)

/-! ### Steps and runs -/

/-- What the ports offer, with the contents of the state behind it replaced. -/
def Arrival.withContents (a b c : List Cplx) : Arrival → Arrival
  | .idle => .idle
  | .command p w u => .command p w (u.withContents a b c)

theorem takeP_withContents (s : State) (a b c : List Cplx) :
    takeP (s.withContents a b c) = (takeP s).withContents a b c := by
  cases hp : s.pIn <;> simp [takeP, State.withContents, Arrival.withContents, hp]

theorem takeC_withContents (s : State) (a b c : List Cplx) :
    takeC (s.withContents a b c) = (takeC s).withContents a b c := by
  cases hc : s.cIn <;> simp [takeC, State.withContents, Arrival.withContents, hc]

theorem spendChoice_withContents (s : State) (a b c : List Cplx) :
    spendChoice (s.withContents a b c) = (spendChoice s).withContents a b c := by
  cases hg : s.grants <;> simp [spendChoice, State.withContents, hg]

theorem arrival_withContents (s : State) (a b c : List Cplx) :
    arrival (s.withContents a b c) = (arrival s).withContents a b c := by
  have hpIn : (s.withContents a b c).pIn = s.pIn := rfl
  have hcIn : (s.withContents a b c).cIn = s.cIn := rfl
  have hchosen : chosenPort (s.withContents a b c) = chosenPort s := rfl
  simp only [arrival, hpIn, hcIn, hchosen, spendChoice_withContents, takeP_withContents, takeC_withContents]
  split
  · rfl
  · split
    · rfl
    · cases chosenPort s <;> rfl

/-- Taking a word writes the ports alone. -/
theorem Taken.sameButUnspecified {p : Port} {w : Word64} {s t u : State} (h : Taken p w s u)
    (hst : SameButUnspecified s t) : SameButUnspecified u (u.withContents t.slot0 t.slot1 t.spec) := by
  rw [h.frame]
  refine ⟨rfl, fun x hx => ?_, hst.spec_eq⟩
  cases x
  · exact hst.slots_eq .s0 hx
  · exact hst.slots_eq .s1 hx

theorem step_sameButUnspecified {s t s' : State} (hs : s.Inv) (hst : SameButUnspecified s t) (h : step s = .next s') :
    ∃ t', step t = .next t' ∧ SameButUnspecified s' t' := by
  have hrest := hst.rest_eq
  have harrival : arrival t = (arrival s).withContents t.slot0 t.slot1 t.spec :=
    (congrArg arrival hrest).trans (arrival_withContents s _ _ _)
  have hreset : t.resetIn = s.resetIn := by rw [hrest]
  rcases step_cases h with ⟨hr, rfl⟩ | ⟨hr, hp, hc, rfl⟩ | ⟨p, w, u, hr, htake, htaken, hrun⟩
  · have hsame : applyReset t = applyReset s := by rw [hrest]; rfl
    exact ⟨applyReset t, if_pos (hreset.trans hr), hsame ▸ .refl _⟩
  · have hidle : arrival t = .idle := by simp [harrival, arrival_of_cIn_nil hc, takeP, hp, Arrival.withContents]
    exact ⟨t, by simp [step, hreset, hr, hidle], hst⟩
  · rw [htake] at harrival
    have hstep := step_of_arrival (hreset.trans hr) harrival
    have hu := htaken.sameButUnspecified hst
    rcases hrun with ⟨f, hdecode, rfl⟩ | ⟨i, hdecode, hexec⟩
    · exact ⟨_, hstep.trans (runCommand_of_error hdecode _), raiseFault_sameButUnspecified f hu⟩
    · obtain ⟨t', hexec'⟩ := everyCommandCompletesInOneStep.1 i (u.withContents t.slot0 t.slot1 t.spec)
      exact ⟨t', (hstep.trans (runCommand_of_decode hdecode _)).trans hexec',
        exec_sameButUnspecified (taken_inv htaken hs) hu hexec hexec'⟩

/-- Settles O42, by induction on the length of the run: a step keeps the relation (`step_sameButUnspecified`) and the
invariant. -/
theorem unspecifiedContentsAreUnobservable : Obligations.UnspecifiedContentsAreUnobservable := by
  unfold Obligations.UnspecifiedContentsAreUnobservable
  intro k
  induction k with
  | zero =>
    intro s t s' _ hst h
    cases h
    exact ⟨t, rfl, hst⟩
  | succ k ih =>
    intro s t s' hs hst h
    obtain ⟨u, hstep⟩ := step_next s
    obtain ⟨v, hstep', huv⟩ := step_sameButUnspecified hs hst hstep
    rw [run_succ_of_step hstep] at h
    obtain ⟨t', hrun, hst'⟩ := ih u v s' (stepKeepsTheInvariant s u hs hstep) huv h
    exact ⟨t', (run_succ_of_step hstep' k).trans hrun, hst'⟩

/-! ## O10, O11, O28: the state after reset (spec/70_reset_and_hazards.md R250 to R253) -/

theorem statusWord_applyReset (s : State) : statusWord (applyReset s) = 0 := by
  refine BitVec.eq_of_toNat_eq ?_
  rw [statusWord_toNat, stateWord_toNat]
  rfl

/-- Settles O10: a step with reset asserted is `applyReset`, which writes the values of R251 over any state, and
`State.reset` is what it makes of itself. -/
theorem resetGivesTheResetValues : Obligations.ResetGivesTheResetValues := by
  unfold Obligations.ResetGivesTheResetValues
  intro s hs
  have hreached : if s.resetIn = true then step s = .next (applyReset s) else applyReset s = State.reset := by
    rcases hs with hasserted | rfl
    · rw [if_pos hasserted]
      exact if_pos hasserted
    · exact (if_neg Bool.false_ne_true).mpr rfl
  exact ⟨applyReset s, hreached, rfl, rfl, rfl, rfl, rfl, rfl, rfl, rfl, rfl, rfl, rfl, rfl, rfl, rfl, rfl, rfl, rfl,
    statusWord_applyReset s⟩

/-- Settles O11: after reset `LAST_W_VALID` is 0, so `P.START` finds no slot last published (R115), and the read slot is not
full (R118). -/
theorem firstCommandsAfterReset : Obligations.FirstCommandsAfterReset := by
  unfold Obligations.FirstCommandsAfterReset
  intro c
  obtain ⟨-, -, -, hstart⟩ := pStartFollowsItsRule (State.initial c)
  obtain ⟨-, hnoWindow, -⟩ := cStartFollowsItsRule { State.initial c with cur := .portC }
  exact ⟨⟨_, hstart rfl rfl (.inl rfl), rfl, rfl, rfl⟩, _, hnoWindow rfl rfl, rfl, rfl⟩

/-- Settles O28 by `initial_inv`. -/
theorem resetMeetsTheInvariant : Obligations.ResetMeetsTheInvariant := by
  unfold Obligations.ResetMeetsTheInvariant
  exact fun c => ⟨initial_inv c, rfl⟩

end Sys2Proof.Machine
